-- ==== Sys2Proof/Word.lean ====
section
/-! DEFINITION. The word types of the block: bytes, 16-bit PIB values, 24-bit symbol counts and the 32-bit operation
word (spec/30_encoding.md R80 and R84). Every value is unsigned (spec/00_scope.md R9). -/

namespace Sys2Proof

/-- A byte of a data-in or data-out buffer, a handle, a CHCI code, an attribute identifier. -/
abbrev Byte := BitVec 8

/-- A 16-bit value: a PIB value as PIB_SET and PIB_GET carry it, a CHCI length. -/
abbrev Half := BitVec 16

/-- A 24-bit count of symbols (TICK `n`, RX_ENABLE `dur`). -/
abbrev Symbols := BitVec 24

/-- A 32-bit operation word or response value. -/
abbrev Word := BitVec 32

end Sys2Proof
end

