-- ==== Sys2Proof/Syntax.lean ====
section
/-! DEFINITION. The operations of the block, one constructor per row of spec/opcode_table.json, and the names their
operands stand for (spec/30_encoding.md R83 to R85). -/

namespace Sys2Proof

/-- The CHCI channel an operand `ch` names (R84): 0 the command/event channel, 1 the data channel. -/
inductive Channel where
  | commandEvent
  | data
deriving DecidableEq, Repr, Inhabited

/-- The direction an operand `dir` names (R84): 0 host to block, 1 block to host. -/
inductive Direction where
  | inbound
  | outbound
deriving DecidableEq, Repr, Inhabited

/-- The agents that supply operations (spec/00_scope.md R5, spec/60_exceptions.md R290). -/
inductive Agent where
  | host
  | radioDriver
  | tickSource
  | pollLogic
deriving DecidableEq, Repr, Inhabited

/-- The operations (R85). Operand widths are those of R84, so every term is encodable; the data-in buffer of
FRAME_PARSE and FRAME_BUILD is presented beside the word (R80) and is not an operand. -/
inductive Instr where
  | init (ih : Bool)
  | deinit
  | reset
  | pibSet (attr : Byte) (value : Half)
  | pibGet (attr : Byte)
  | hdrEncode (code : Byte) (len : Half)
  | hdrDecode (b0 b1 b2 : Byte)
  | frameParse (dir : Direction) (ch : Channel)
  | frameBuild (code : Byte) (dir : Direction) (ch : Channel)
  | classify (code : Byte) (ch : Channel)
  | dataReq (handle len : Byte) (ind ack : Bool)
  | tick (n : Symbols)
  | ccaResult (busy : Bool)
  | txDone
  | ackRx (seq : Byte)
  | indRelease (handle : Byte)
  | purge (handle : Byte)
  | rxEnable (stop start : Bool) (dur : Symbols)
  | isRxEnabled
  | startRx
deriving DecidableEq, Repr, Inhabited

/-- One operation as an agent delivers it: the decoded word with its data-in buffer (spec/20_memory.md R61). -/
structure Operation where
  instr : Instr
  dataIn : List Byte
deriving DecidableEq, Repr, Inhabited

end Sys2Proof
end

