-- ==== Sys2Proof/Config.lean ====
section
/-! DEFINITION. The implementation parameters of spec/00_scope.md R7 and the oracle of R5. An OPEN parameter is an opaque
constant: no proof can see its value. `Config.platform` collects them, and every operation of the machine takes a
`Params` as an argument, so that what is proved for every `Params` holds for the alternatives of R174 and R175 too. -/

namespace Sys2Proof

/-- The status codes of spec/60_exceptions.md R282, by name (their numbers: `Machine.statusCode`). -/
inductive Status where
  | success
  | channelAccessFailure
  | invalidHandle
  | invalidParameter
  | noAck
  | transactionExpired
  | transactionOverflow
  | unsupportedAttribute
  | readOnly
  | busy
deriving DecidableEq, Repr, Inhabited

/-- The ten PIB registers of spec/10_state.md R24 with their widths. -/
structure Pib where
  minBE : BitVec 4
  maxBE : BitVec 4
  maxCSMABackoffs : BitVec 3
  maxFrameRetries : BitVec 3
  ackWaitDuration : BitVec 16
  maxFrameTotalWaitTime : BitVec 16
  transactionPersistenceTime : BitVec 16
  dsn : BitVec 8
  rxOnWhenIdle : Bool
  disableCCA : Bool
deriving DecidableEq, Repr, Inhabited

/-- Every PIB register 0: the value DEINIT writes (R24, spec/41_pib_lifecycle.md R112). -/
def Pib.zero : Pib :=
  { minBE := 0, maxBE := 0, maxCSMABackoffs := 0, maxFrameRetries := 0, ackWaitDuration := 0,
    maxFrameTotalWaitTime := 0, transactionPersistenceTime := 0, dsn := 0, rxOnWhenIdle := false, disableCCA := false }

/-- CSMA_ATTEMPTS_MODE (R7, spec/43_csma_engine.md R174). -/
inductive CsmaAttemptsMode where
  | docLiteral
  | nbExclusive
deriving DecidableEq, Repr, Inhabited

/-- BE_GROWTH (R7, spec/43_csma_engine.md R175). -/
inductive BeGrowth where
  | increment
  | double
deriving DecidableEq, Repr, Inhabited

/-- The messages CHCI_CODES gives a code to (R7): the confirms of R286 and the requests they answer. -/
inductive ChciMessage where
  | dataRequest
  | dataConfirm
  | purgeRequest
  | purgeConfirm
  | setRequest
  | setConfirm
  | getRequest
  | getConfirm
  | resetRequest
  | resetConfirm
  | rxEnableRequest
  | rxEnableConfirm
deriving DecidableEq, Repr, Inhabited

/-- The channel a message travels on (spec/30_encoding.md R96, R99). -/
def ChciMessage.channel : ChciMessage → Channel
  | .dataRequest => .data
  | .dataConfirm => .commandEvent
  | .purgeRequest => .commandEvent
  | .purgeConfirm => .commandEvent
  | .setRequest => .commandEvent
  | .setConfirm => .commandEvent
  | .getRequest => .commandEvent
  | .getConfirm => .commandEvent
  | .resetRequest => .commandEvent
  | .resetConfirm => .commandEvent
  | .rxEnableRequest => .commandEvent
  | .rxEnableConfirm => .commandEvent

/-- Requests go from the host to the block, confirms from the block to the host (R95, R96). -/
def ChciMessage.direction : ChciMessage → Direction
  | .dataRequest => .inbound
  | .dataConfirm => .outbound
  | .purgeRequest => .inbound
  | .purgeConfirm => .outbound
  | .setRequest => .inbound
  | .setConfirm => .outbound
  | .getRequest => .inbound
  | .getConfirm => .outbound
  | .resetRequest => .inbound
  | .resetConfirm => .outbound
  | .rxEnableRequest => .inbound
  | .rxEnableConfirm => .outbound

/-- The parameters of R7 and the oracle's answers (R111, R176). The n-th question the oracle is asked has the answer
`backoffDraw n` or `initDraw n`; a backoff draw is brought into its range where it is used (R176). -/
structure Params where
  maxFrameLen : BitVec 8
  unitBackoffPeriod : Nat
  csmaAttemptsMode : CsmaAttemptsMode
  beGrowth : BeGrowth
  totalWaitStatus : Status
  indirectDepth : Nat
  maxChciPayload : BitVec 16
  pibDefault : Pib
  chciCode : ChciMessage → Byte
  backoffDraw : Nat → Nat
  initDraw : Nat → Bool

namespace Config

/-- MAX_FRAME_LEN, OPEN in 0 to 255 (R7, 92 D36). DESIGN CHOICE, safe: notes/assumptions/6.md. -/
opaque maxFrameLen : BitVec 8
/-- UNIT_BACKOFF_PERIOD less 1, so that the parameter is at least 1 (R7, 92 D13). notes/assumptions/6.md. -/
opaque unitBackoffPeriodLessOne : Nat
/-- INDIRECT_DEPTH less 1, so that the parameter is at least 1 (R7, 92 D20). notes/assumptions/6.md. -/
opaque indirectDepthLessOne : Nat
/-- MAX_CHCI_PAYLOAD, OPEN in 0 to 65535 (R7, 92 D30). notes/assumptions/6.md. -/
opaque maxChciPayload : BitVec 16
/-- CHCI_CODES, OPEN: the order in which the twelve assigned command codes 0x01 to 0x0C are given out (R7, R95, R99, 92
D32). No rule reads it. notes/assumptions/15.md. -/
opaque chciCommandOrder : Equiv.Perm (Fin 12)
/-- CHCI_CODES, OPEN: the order in which the seventeen assigned event codes 0x81 to 0x91 are given out (R95, R99).
notes/assumptions/15.md. -/
opaque chciEventOrder : Equiv.Perm (Fin 17)
/-- PIB_DEFAULT.maxBE, OPEN in 0 to 8 (R24, 92 D28). notes/assumptions/6.md. -/
opaque defaultMaxBE : Fin 9
/-- PIB_DEFAULT.minBE before it is bounded by PIB_DEFAULT.maxBE (R25, R312). notes/assumptions/6.md. -/
opaque defaultMinBE : Fin 9
/-- PIB_DEFAULT.maxCSMABackoffs, OPEN in 0 to 5 (R24). notes/assumptions/6.md. -/
opaque defaultMaxCSMABackoffs : Fin 6
/-- PIB_DEFAULT.maxFrameRetries, OPEN in 0 to 7 (R24). notes/assumptions/6.md. -/
opaque defaultMaxFrameRetries : BitVec 3
/-- PIB_DEFAULT.ackWaitDuration, OPEN (R24). notes/assumptions/6.md. -/
opaque defaultAckWaitDuration : BitVec 16
/-- PIB_DEFAULT.maxFrameTotalWaitTime, OPEN (R24). notes/assumptions/6.md. -/
opaque defaultMaxFrameTotalWaitTime : BitVec 16
/-- PIB_DEFAULT.transactionPersistenceTime, OPEN (R24). notes/assumptions/6.md. -/
opaque defaultTransactionPersistenceTime : BitVec 16
/-- PIB_DEFAULT.dsn, OPEN (R24). notes/assumptions/6.md. -/
opaque defaultDsn : BitVec 8
/-- PIB_DEFAULT.rxOnWhenIdle, OPEN (R24). notes/assumptions/6.md. -/
opaque defaultRxOnWhenIdle : Bool
/-- PIB_DEFAULT.disableCCA, OPEN (R24). notes/assumptions/6.md. -/
opaque defaultDisableCCA : Bool
/-- FREE VALUE: what the oracle answers to its n-th question when it is a backoff draw (R176, I8).
notes/assumptions/4.md. Of ONE instance: that a second one asks an oracle of its own is outside the model, DESIGN CHOICE,
UNSAFE, notes/assumptions/21.md. -/
opaque backoffDraw : Nat → Nat
/-- FREE VALUE: what the oracle answers to its n-th question when it is an INIT outcome (R111, I9).
notes/assumptions/5.md. Of ONE instance, as `backoffDraw`: DESIGN CHOICE, UNSAFE, notes/assumptions/21.md. -/
opaque initDraw : Nat → Bool

/-- PIB_DEFAULT (R7): every legal value and no other is one of its values (R25, R312). -/
def pibDefault : Pib :=
  { minBE := BitVec.ofNat 4 (min defaultMinBE.val defaultMaxBE.val)
    maxBE := BitVec.ofNat 4 defaultMaxBE.val
    maxCSMABackoffs := BitVec.ofNat 3 defaultMaxCSMABackoffs.val
    maxFrameRetries := defaultMaxFrameRetries
    ackWaitDuration := defaultAckWaitDuration
    maxFrameTotalWaitTime := defaultMaxFrameTotalWaitTime
    transactionPersistenceTime := defaultTransactionPersistenceTime
    dsn := defaultDsn
    rxOnWhenIdle := defaultRxOnWhenIdle
    disableCCA := defaultDisableCCA }

/-- The `k`-th command code given out. -/
def chciCommand (k : Fin 12) : Byte := BitVec.ofNat 8 (0x01 + (chciCommandOrder k).val)

/-- The `k`-th event code given out. -/
def chciEvent (k : Fin 17) : Byte := BitVec.ofNat 8 (0x81 + (chciEventOrder k).val)

/-- CHCI_CODES (R7, R99): the data request has the code R96 gives it; every other message has an assigned code of its
direction (R95), no two the same, and every such assignment is one of its values. DEDUCED, notes/assumptions/15.md. -/
def chciCode : ChciMessage → Byte
  | .dataRequest => 0x01#8
  | .purgeRequest => chciCommand 0
  | .setRequest => chciCommand 1
  | .getRequest => chciCommand 2
  | .resetRequest => chciCommand 3
  | .rxEnableRequest => chciCommand 4
  | .dataConfirm => chciEvent 0
  | .purgeConfirm => chciEvent 1
  | .setConfirm => chciEvent 2
  | .getConfirm => chciEvent 3
  | .resetConfirm => chciEvent 4
  | .rxEnableConfirm => chciEvent 5

/-- The parameters of the block this model is of: the decided ones of R7 at their decided values (92 D7, D8, D11), the
OPEN ones opaque. DESIGN CHOICE: notes/assumptions/7.md. One block's: two blocks may have different ones,
notes/assumptions/21.md. -/
def platform : Params :=
  { maxFrameLen := maxFrameLen
    unitBackoffPeriod := unitBackoffPeriodLessOne + 1
    csmaAttemptsMode := .docLiteral
    beGrowth := .increment
    totalWaitStatus := .transactionExpired
    indirectDepth := indirectDepthLessOne + 1
    maxChciPayload := maxChciPayload
    pibDefault := pibDefault
    chciCode := chciCode
    backoffDraw := backoffDraw
    initDraw := initDraw }

end Config
end Sys2Proof
end

