-- ==== Sys2Proof/WellFormed.lean ====
section
/-! DEFINITION. Well-formedness. An `Instr` is well-formed by its type, every operand having exactly the width of
spec/30_encoding.md R84; what remains to check is the data-in buffer of an operation (spec/20_memory.md R61), the PIB
bounds (spec/10_state.md R24, R25) and the parameters (spec/00_scope.md R7). -/

namespace Sys2Proof

/-- The operations that have a data-in buffer (R61). -/
def Instr.hasDataIn : Instr → Bool
  | .frameParse _ _ => true
  | .frameBuild _ _ _ => true
  | .init _ => false
  | .deinit => false
  | .reset => false
  | .pibSet _ _ => false
  | .pibGet _ => false
  | .hdrEncode _ _ => false
  | .hdrDecode _ _ _ => false
  | .classify _ _ => false
  | .dataReq _ _ _ _ => false
  | .tick _ => false
  | .ccaResult _ => false
  | .txDone => false
  | .ackRx _ => false
  | .indRelease _ => false
  | .purge _ => false
  | .rxEnable _ _ _ => false
  | .isRxEnabled => false
  | .startRx => false

/-- The largest data-in buffer: the largest CHCI frame, 3 + 65535 bytes (R61, R100). -/
def maxDataIn : Nat := 65538

/-- An operation as R61 allows it: the buffer is at most `maxDataIn` bytes, and empty unless the operation has one. -/
def Operation.wf (o : Operation) : Bool :=
  decide (o.dataIn.length ≤ maxDataIn) && (o.instr.hasDataIn || o.dataIn.isEmpty)

/-- The PIB invariant of R24 and R25: minBE <= maxBE <= 8 and maxCSMABackoffs <= 5 (maxFrameRetries <= 7 by its
width). -/
def Pib.wf (p : Pib) : Bool :=
  decide (p.minBE.toNat ≤ p.maxBE.toNat) && decide (p.maxBE.toNat ≤ 8) && decide (p.maxCSMABackoffs.toNat ≤ 5)

/-- The messages of CHCI_CODES that share the command and event channel (R95). -/
def commandEventMessages : List ChciMessage :=
  [.purgeRequest, .setRequest, .getRequest, .resetRequest, .rxEnableRequest, .dataConfirm, .purgeConfirm, .setConfirm,
    .getConfirm, .resetConfirm, .rxEnableConfirm]

/-- A code is assigned to a message's channel and direction (R95, R96). -/
def ChciMessage.assigned (m : ChciMessage) (code : Byte) : Bool :=
  match m.channel, m.direction with
  | .data, .inbound => decide (code = 0x01#8)
  | .data, .outbound => decide (code = 0x81#8)
  | .commandEvent, .inbound => decide (0x01 ≤ code.toNat ∧ code.toNat ≤ 0x0C)
  | .commandEvent, .outbound => decide (0x81 ≤ code.toNat ∧ code.toNat ≤ 0x91)

/-- Legal CHCI_CODES (R95, R96, R99): every message has an assigned code, and a code names one message of a channel
(DEDUCED, notes/assumptions/15.md). -/
def chciCodesWf (f : ChciMessage → Byte) : Bool :=
  (.dataRequest :: commandEventMessages).all (fun m => m.assigned (f m)) && decide (commandEventMessages.map f).Nodup

/-- Legal parameters (R7, R99, R312): a backoff period and a queue depth of at least 1, a PIB_DEFAULT that keeps R25 and
CHCI_CODES that keep R95 and R96. -/
def Params.wf (c : Params) : Bool :=
  decide (1 ≤ c.unitBackoffPeriod) && decide (1 ≤ c.indirectDepth) && c.pibDefault.wf && chciCodesWf c.chciCode

end Sys2Proof
end

