-- ==== Sys2Proof/Decode.lean ====
section
/-! DEFINITION. Decoding an operation word, total on all 2^32 words and rejecting by name (spec/30_encoding.md R80 to R88),
the encoder, the opcode table, and the little-endian byte transport of a word (spec/20_memory.md R63). -/

namespace Sys2Proof

/-- Why a word is illegal (R86, R87). -/
inductive DecodeError where
  /-- the operation code is in no row of R85 -/
  | unassignedCode
  /-- a bit that the operation's format does not name is 1 -/
  | reservedBitSet
  /-- fewer than four bytes of a byte transport (R63) -/
  | shortWord
deriving DecidableEq, Repr

/-- The operand formats of R83. -/
inductive Format where
  | N | I | AV | A | CL | B3 | CD | CCD | CC | D | T | C1 | S | H | R
deriving DecidableEq, Repr

/-- The bits of a word's operand field that a format does not name (R83). -/
def Format.reserved : Format → Word
  | .N => 0x00FFFFFF#32
  | .I => 0x00FFFFFE#32
  | .AV => 0#32
  | .A => 0x0000FFFF#32
  | .CL => 0#32
  | .B3 => 0#32
  | .CD => 0x00FFFFFC#32
  | .CCD => 0x0000FFFC#32
  | .CC => 0x0000FFFE#32
  | .D => 0x000000FC#32
  | .T => 0#32
  | .C1 => 0x00FFFFFE#32
  | .S => 0x00FFFF00#32
  | .H => 0x0000FFFF#32
  | .R => 0#32

/-- `ch` (R84). -/
def Channel.ofBit : Bool → Channel
  | false => .commandEvent
  | true => .data

def Channel.bit : Channel → Bool
  | .commandEvent => false
  | .data => true

/-- `dir` (R84). -/
def Direction.ofBit : Bool → Direction
  | false => .inbound
  | true => .outbound

def Direction.bit : Direction → Bool
  | .inbound => false
  | .outbound => true

/-- The operation code `w[31:24]` (R81). -/
def opcOf (w : Word) : Byte := w.extractLsb' 24 8

/-- The rows of R85 but RX_ENABLE: the format of an operation code and the operation its fields make (R83). -/
def opcRow (opc : Byte) (w : Word) : Option (Format × Instr) :=
  match opc with
  | 0x01#8 => some (.I, .init (w.getLsbD 0))
  | 0x02#8 => some (.N, .deinit)
  | 0x03#8 => some (.N, .reset)
  | 0x04#8 => some (.AV, .pibSet (w.extractLsb' 16 8) (w.extractLsb' 0 16))
  | 0x05#8 => some (.A, .pibGet (w.extractLsb' 16 8))
  | 0x10#8 => some (.CL, .hdrEncode (w.extractLsb' 16 8) (w.extractLsb' 0 16))
  | 0x11#8 => some (.B3, .hdrDecode (w.extractLsb' 16 8) (w.extractLsb' 8 8) (w.extractLsb' 0 8))
  | 0x12#8 => some (.CD, .frameParse (.ofBit (w.getLsbD 1)) (.ofBit (w.getLsbD 0)))
  | 0x13#8 => some (.CCD, .frameBuild (w.extractLsb' 16 8) (.ofBit (w.getLsbD 1)) (.ofBit (w.getLsbD 0)))
  | 0x14#8 => some (.CC, .classify (w.extractLsb' 16 8) (.ofBit (w.getLsbD 0)))
  | 0x20#8 => some (.D, .dataReq (w.extractLsb' 16 8) (w.extractLsb' 8 8) (w.getLsbD 1) (w.getLsbD 0))
  | 0x21#8 => some (.T, .tick (w.extractLsb' 0 24))
  | 0x22#8 => some (.C1, .ccaResult (w.getLsbD 0))
  | 0x23#8 => some (.N, .txDone)
  | 0x24#8 => some (.S, .ackRx (w.extractLsb' 0 8))
  | 0x30#8 => some (.H, .indRelease (w.extractLsb' 16 8))
  | 0x31#8 => some (.H, .purge (w.extractLsb' 16 8))
  | 0x48#8 => some (.N, .isRxEnabled)
  | 0x49#8 => some (.N, .startRx)
  | _ => none

/-- `decode(w)` of R86. -/
def decode (w : Word) : Except DecodeError Instr :=
  if w.extractLsb' 26 6 = 0b010000#6 then
    .ok (.rxEnable (w.getLsbD 25) (w.getLsbD 24) (w.extractLsb' 0 24))
  else
    match opcRow (opcOf w) w with
    | none => .error .unassignedCode
    | some (f, i) => if w &&& f.reserved = 0#32 then .ok i else .error .reservedBitSet

/-- A field at bit `lo` of an operation word. -/
def fieldAt {n : Nat} (v : BitVec n) (lo : Nat) : Word := v.setWidth 32 <<< lo

/-- A one-bit field at bit `lo` of an operation word. -/
def bitAt (b : Bool) (lo : Nat) : Word := fieldAt (BitVec.ofBool b) lo

/-- The word of an operation (R81, R83, R85): its code in `w[31:24]`, its fields in place, every reserved bit 0. -/
def encode : Instr → Word
  | .init ih => 0x01000000#32 ||| bitAt ih 0
  | .deinit => 0x02000000#32
  | .reset => 0x03000000#32
  | .pibSet attr value => 0x04000000#32 ||| fieldAt attr 16 ||| fieldAt value 0
  | .pibGet attr => 0x05000000#32 ||| fieldAt attr 16
  | .hdrEncode code len => 0x10000000#32 ||| fieldAt code 16 ||| fieldAt len 0
  | .hdrDecode b0 b1 b2 => 0x11000000#32 ||| fieldAt b0 16 ||| fieldAt b1 8 ||| fieldAt b2 0
  | .frameParse dir ch => 0x12000000#32 ||| bitAt dir.bit 1 ||| bitAt ch.bit 0
  | .frameBuild code dir ch => 0x13000000#32 ||| fieldAt code 16 ||| bitAt dir.bit 1 ||| bitAt ch.bit 0
  | .classify code ch => 0x14000000#32 ||| fieldAt code 16 ||| bitAt ch.bit 0
  | .dataReq handle len ind ack =>
      0x20000000#32 ||| fieldAt handle 16 ||| fieldAt len 8 ||| bitAt ind 1 ||| bitAt ack 0
  | .tick n => 0x21000000#32 ||| fieldAt n 0
  | .ccaResult busy => 0x22000000#32 ||| bitAt busy 0
  | .txDone => 0x23000000#32
  | .ackRx seq => 0x24000000#32 ||| fieldAt seq 0
  | .indRelease handle => 0x30000000#32 ||| fieldAt handle 16
  | .purge handle => 0x31000000#32 ||| fieldAt handle 16
  | .rxEnable stop start dur => 0x40000000#32 ||| bitAt stop 25 ||| bitAt start 24 ||| fieldAt dur 0
  | .isRxEnabled => 0x48000000#32
  | .startRx => 0x49000000#32

/-- A row of spec/opcode_table.json: the mnemonic, the fixed bits (`mask`) with their value (`value`), and each field's
name with its highest and lowest bit. -/
structure OpRow where
  mnemonic : String
  mask : Word
  value : Word
  fields : List (String × Nat × Nat)
deriving DecidableEq, Repr

/-- spec/opcode_table.json, the machine-readable copy of R83 and R85. -/
def opcodeTable : List OpRow :=
  [ ⟨"INIT", 0xFFFFFFFE#32, 0x01000000#32, [("ih", 0, 0)]⟩,
    ⟨"DEINIT", 0xFFFFFFFF#32, 0x02000000#32, []⟩,
    ⟨"RESET", 0xFFFFFFFF#32, 0x03000000#32, []⟩,
    ⟨"PIB_SET", 0xFF000000#32, 0x04000000#32, [("attr", 23, 16), ("value", 15, 0)]⟩,
    ⟨"PIB_GET", 0xFF00FFFF#32, 0x05000000#32, [("attr", 23, 16)]⟩ ] ++
  [ ⟨"HDR_ENCODE", 0xFF000000#32, 0x10000000#32, [("code", 23, 16), ("len", 15, 0)]⟩,
    ⟨"HDR_DECODE", 0xFF000000#32, 0x11000000#32, [("b0", 23, 16), ("b1", 15, 8), ("b2", 7, 0)]⟩,
    ⟨"FRAME_PARSE", 0xFFFFFFFC#32, 0x12000000#32, [("dir", 1, 1), ("ch", 0, 0)]⟩,
    ⟨"FRAME_BUILD", 0xFF00FFFC#32, 0x13000000#32, [("code", 23, 16), ("dir", 1, 1), ("ch", 0, 0)]⟩,
    ⟨"CLASSIFY", 0xFF00FFFE#32, 0x14000000#32, [("code", 23, 16), ("ch", 0, 0)]⟩ ] ++
  [ ⟨"DATA_REQ", 0xFF0000FC#32, 0x20000000#32, [("handle", 23, 16), ("len", 15, 8), ("ind", 1, 1), ("ack", 0, 0)]⟩,
    ⟨"TICK", 0xFF000000#32, 0x21000000#32, [("n", 23, 0)]⟩,
    ⟨"CCA_RESULT", 0xFFFFFFFE#32, 0x22000000#32, [("busy", 0, 0)]⟩,
    ⟨"TX_DONE", 0xFFFFFFFF#32, 0x23000000#32, []⟩,
    ⟨"ACK_RX", 0xFFFFFF00#32, 0x24000000#32, [("seq", 7, 0)]⟩ ] ++
  [ ⟨"IND_RELEASE", 0xFF00FFFF#32, 0x30000000#32, [("handle", 23, 16)]⟩,
    ⟨"PURGE", 0xFF00FFFF#32, 0x31000000#32, [("handle", 23, 16)]⟩,
    ⟨"RX_ENABLE", 0xFC000000#32, 0x40000000#32, [("stop", 25, 25), ("start", 24, 24), ("dur", 23, 0)]⟩,
    ⟨"IS_RX_ENABLED", 0xFFFFFFFF#32, 0x48000000#32, []⟩,
    ⟨"START_RX", 0xFFFFFFFF#32, 0x49000000#32, []⟩ ]

/-- A word is an instance of a row: its fixed bits have the row's value. -/
def OpRow.covers (r : OpRow) (w : Word) : Bool := decide (w &&& r.mask = r.value)

/-- The mnemonic of an operation (R85). -/
def Instr.mnemonic : Instr → String
  | .init _ => "INIT"
  | .deinit => "DEINIT"
  | .reset => "RESET"
  | .pibSet _ _ => "PIB_SET"
  | .pibGet _ => "PIB_GET"
  | .hdrEncode _ _ => "HDR_ENCODE"
  | .hdrDecode _ _ _ => "HDR_DECODE"
  | .frameParse _ _ => "FRAME_PARSE"
  | .frameBuild _ _ _ => "FRAME_BUILD"
  | .classify _ _ => "CLASSIFY"
  | .dataReq _ _ _ _ => "DATA_REQ"
  | .tick _ => "TICK"
  | .ccaResult _ => "CCA_RESULT"
  | .txDone => "TX_DONE"
  | .ackRx _ => "ACK_RX"
  | .indRelease _ => "IND_RELEASE"
  | .purge _ => "PURGE"
  | .rxEnable _ _ _ => "RX_ENABLE"
  | .isRxEnabled => "IS_RX_ENABLED"
  | .startRx => "START_RX"

/-- The four bytes of a word on a byte transport, byte 0 being bits 7..0 (spec/20_memory.md R63). -/
def wordBytes (w : Word) : List Byte :=
  [w.extractLsb' 0 8, w.extractLsb' 8 8, w.extractLsb' 16 8, w.extractLsb' 24 8]

/-- The word four transported bytes make (R63). -/
def wordOfBytes (b0 b1 b2 b3 : Byte) : Word :=
  fieldAt b3 24 ||| fieldAt b2 16 ||| fieldAt b1 8 ||| fieldAt b0 0

/-- Decode the first operation of a byte transport and give the bytes that follow it (R63, R88). -/
def decodeBytes : List Byte → Except DecodeError (Instr × List Byte)
  | b0 :: b1 :: b2 :: b3 :: rest => (decode (wordOfBytes b0 b1 b2 b3)).map (fun i => (i, rest))
  | _ => .error .shortWord

/-- The word whose lowest `nbits` bits are those of `w` and whose other bits are 0. -/
def tableWord (nbits w : Nat) : Word := BitVec.ofNat 32 (w % 2 ^ nbits)

/-- What the decoder reads from an opcode-table word: the word laid out as the byte transport stores it (R63), lowest
byte first, then decoded. -/
def decodeTableWord (nbits w : Nat) : Option Instr :=
  match decodeBytes (wordBytes (tableWord nbits w)) with
  | .ok (i, _) => some i
  | .error _ => none

end Sys2Proof
end

