-- ==== Sys2Proof/Machine/State.lean ====
section
/-! DEFINITION. The state of the block (spec/10_state.md), what its port presents and what a run observes
(spec/20_memory.md R61, spec/30_encoding.md R80 and R82, spec/60_exceptions.md R285 and R286), the reasons a step can
stop, and the state at power-on. -/

namespace Sys2Proof.Machine

/-- `life` (R22): OFF = 0, ON = 1, FAILED = 2; the value 3 never occurs. DESIGN CHOICE, safe:
notes/assumptions/10.md. -/
inductive Life where
  | off
  | on
  | failed
deriving DecidableEq, Repr, Inhabited

/-- `st` (R28): IDLE = 0, BACKOFF = 1, CCA_WAIT = 2, TX_WAIT = 3, ACK_WAIT = 4; 5 to 7 never occur. DESIGN CHOICE,
safe: notes/assumptions/10.md. -/
inductive EngState where
  | idle
  | backoff
  | ccaWait
  | txWait
  | ackWait
deriving DecidableEq, Repr, Inhabited

/-- The CSMA/CA engine's registers (R28 to R34). `backoffTimer` is a natural number because its width depends on the
open parameter UNIT_BACKOFF_PERIOD (R33); the invariant bounds it. DESIGN CHOICE, notes/assumptions/11.md. -/
structure Engine where
  st : EngState
  handle : BitVec 8
  len : BitVec 8
  ackReq : Bool
  sMinBE : BitVec 4
  sMaxBE : BitVec 4
  sMaxCB : BitVec 3
  sMaxFR : BitVec 3
  sAckWait : BitVec 16
  sDisableCCA : Bool
  BE : BitVec 4
  NB : BitVec 3
  retries : BitVec 3
  seq : BitVec 8
  seqValid : Bool
  backoffTimer : Nat
  ackTimer : BitVec 16
  totalTimer : BitVec 16
deriving DecidableEq, Repr, Inhabited

/-- The engine with no request: `st = IDLE` and every other register 0 (R35, spec/43_csma_engine.md R181). -/
def Engine.idle : Engine :=
  { st := .idle, handle := 0, len := 0, ackReq := false, sMinBE := 0, sMaxBE := 0, sMaxCB := 0, sMaxFR := 0,
    sAckWait := 0, sDisableCCA := false, BE := 0, NB := 0, retries := 0, seq := 0, seqValid := false,
    backoffTimer := 0, ackTimer := 0, totalTimer := 0 }

/-- One held indirect request (R36). -/
structure Entry where
  handle : BitVec 8
  len : BitVec 8
  ackReq : Bool
  persist : BitVec 16
deriving DecidableEq, Repr, Inhabited

/-- The event records of R286, a status by its name. DESIGN CHOICE, safe: notes/assumptions/19.md. -/
inductive Event where
  | confData (handle : Byte) (status : Status)
  | confPurge (handle : Byte) (status : Status)
  | confSet (attr : Byte) (status : Status)
  | confGet (attr : Byte) (status : Status) (value : Half)
  | confReset (status : Status)
  | confRxEnable (status : Status)
  | radioCca
  | radioTx (seq handle len : Byte) (ackReq : Bool)
  | radioRx (on : Bool)
deriving DecidableEq, Repr, Inhabited

/-- The response of one operation (spec/30_encoding.md R82): `handled`, `value` and the data-out buffer. -/
structure Response where
  handled : Bool
  value : Word
  dataOut : List Byte
deriving DecidableEq, Repr, Inhabited

/-- One operation presented at the port (R80): its word, its data-in bytes (R61) and the agent that issued it (R290),
which the block never reads (R291). DESIGN CHOICE, safe: notes/assumptions/9.md and 18.md. -/
structure PortOp where
  issuer : Agent
  word : Word
  dataIn : List Byte
deriving DecidableEq, Repr, Inhabited

/-- The state. The registers of the block are `life` to `radioRx`. The rest is the port's side: the operations presented
and not yet taken, the buffer of the current one, the output stream, the responses given, and how many questions the
oracle has been asked (the model's own field, notes/assumptions/4.md). That the port and the observation stand here is a
DESIGN CHOICE: notes/assumptions/1.md and 8.md. -/
structure State where
  life : Life
  pib : Pib
  eng : Engine
  queue : List Entry
  windowActive : Bool
  windowTimer : BitVec 24
  radioRx : Bool
  port : List PortOp
  dataIn : List Byte
  events : List Event
  responses : List Response
  draws : Nat
deriving DecidableEq, Repr, Inhabited

/-- Why a step stops with a fault. The block itself has no trap (R280) and no operation faults. -/
inductive Fault where
  /-- `step` raises it when no operation is presented at the port: the block waits and makes no progress (R21, R293).
  Safe: the model stops where the block's registers stay as they are. notes/assumptions/2.md. -/
  | portIdle
deriving DecidableEq, Repr

/-- Why an operation has no meaning in the model. The block's own refusal (R281) is a next state, not one of these. -/
inductive Refusal where
  /-- an operation the model does not give a meaning to yet, by its mnemonic. No arm of `exec` uses it. Safe. -/
  | notModelled (mnemonic : String)
deriving DecidableEq, Repr

/-- Power-on (R22, R38, R43, spec/70_reset_and_hazards.md R310 and R311): `life` OFF and `radioRx` 0 as the spec says,
nothing presented, nothing emitted. Every other register is unspecified there and holds 0 here: DESIGN CHOICE,
UNSAFE, notes/assumptions/3.md. It is one instance at its power-on: two copies of it have one oracle and one counter, and so
get the same answers, where R295 and R176 leave that open: DESIGN CHOICE, UNSAFE, notes/assumptions/21.md. -/
def State.reset : State :=
  { life := .off, pib := Pib.zero, eng := Engine.idle, queue := [], windowActive := false, windowTimer := 0,
    radioRx := false, port := [], dataIn := [], events := [], responses := [], draws := 0 }

end Sys2Proof.Machine
end

