-- ==== Sys2Proof/Machine/Flags.lean ====
section
/-! DEFINITION. The block has no flags and no condition codes (spec/10_state.md R40). What takes their place are codes and
numbers: the status codes, the class numbers, the parse statuses and the register encodings. -/

namespace Sys2Proof.Machine

/-- The 8-bit status codes of spec/60_exceptions.md R282. -/
def statusCode : Status → Byte
  | .success => 0x00#8
  | .channelAccessFailure => 0xE1#8
  | .invalidHandle => 0xE7#8
  | .invalidParameter => 0xE8#8
  | .noAck => 0xE9#8
  | .transactionExpired => 0xF0#8
  | .transactionOverflow => 0xF1#8
  | .unsupportedAttribute => 0xF4#8
  | .readOnly => 0xFB#8
  | .busy => 0x7F#8

/-- The register encoding of `life` (spec/10_state.md R22). -/
def Life.code : Life → BitVec 2
  | .off => 0
  | .on => 1
  | .failed => 2

/-- The register encoding of `st` (spec/10_state.md R28). -/
def EngState.code : EngState → BitVec 3
  | .idle => 0
  | .backoff => 1
  | .ccaWait => 2
  | .txWait => 3
  | .ackWait => 4

/-- The code classes of spec/30_encoding.md R98. -/
inductive CodeClass where
  | invalid
  | command
  | commandReserved
  | event
  | eventReserved
  | dataReq
  | dataInd
deriving DecidableEq, Repr

/-- The class numbers of R98. -/
def CodeClass.number : CodeClass → Byte
  | .invalid => 0
  | .command => 1
  | .commandReserved => 2
  | .event => 3
  | .eventReserved => 4
  | .dataReq => 5
  | .dataInd => 6

/-- The parse statuses of spec/42_codec.md R144. -/
inductive ParseStatus where
  | ok
  | shortHeader
  | tooLong
  | lengthMismatch
  | badCode
deriving DecidableEq, Repr

/-- The parse status numbers of R144. -/
def ParseStatus.number : ParseStatus → Byte
  | .ok => 0
  | .shortHeader => 1
  | .tooLong => 2
  | .lengthMismatch => 3
  | .badCode => 4

/-- A one-bit value as a response value, zext_32 (spec/00_scope.md R9). -/
def bitWord (b : Bool) : Word := (BitVec.ofBool b).setWidth 32

end Sys2Proof.Machine
end

