-- ==== Sys2Proof/Machine/Operands.lean ====
section
/-! DEFINITION. The operand forms: the PIB attribute space (spec/10_state.md R24, spec/20_memory.md R65 and R68,
spec/41_pib_lifecycle.md R116), the intended issuer of an operation and the receiver of an event
(spec/60_exceptions.md R286 and R290), and the pseudo-operations (spec/30_encoding.md R93). -/

namespace Sys2Proof.Machine

/-- The names of the ten PIB registers (R24). -/
inductive PibReg where
  | minBE
  | maxBE
  | maxCSMABackoffs
  | maxFrameRetries
  | ackWaitDuration
  | maxFrameTotalWaitTime
  | transactionPersistenceTime
  | dsn
  | rxOnWhenIdle
  | disableCCA
deriving DecidableEq, Repr

/-- The attribute identifiers (R24); every other identifier is unsupported (R68). -/
def attrReg (attr : Byte) : Option PibReg :=
  match attr with
  | 0x40#8 => some .ackWaitDuration
  | 0x4C#8 => some .dsn
  | 0x4E#8 => some .maxCSMABackoffs
  | 0x4F#8 => some .minBE
  | 0x52#8 => some .rxOnWhenIdle
  | 0x55#8 => some .transactionPersistenceTime
  | 0x57#8 => some .maxBE
  | 0x58#8 => some .maxFrameTotalWaitTime
  | 0x59#8 => some .maxFrameRetries
  | 0x80#8 => some .disableCCA
  | _ => none

/-- `zext_16(reg)` (R65): the value PIB_GET reports. -/
def readPib (p : Pib) : PibReg → Half
  | .minBE => p.minBE.setWidth 16
  | .maxBE => p.maxBE.setWidth 16
  | .maxCSMABackoffs => p.maxCSMABackoffs.setWidth 16
  | .maxFrameRetries => p.maxFrameRetries.setWidth 16
  | .ackWaitDuration => p.ackWaitDuration
  | .maxFrameTotalWaitTime => p.maxFrameTotalWaitTime
  | .transactionPersistenceTime => p.transactionPersistenceTime
  | .dsn => p.dsn.setWidth 16
  | .rxOnWhenIdle => (BitVec.ofBool p.rxOnWhenIdle).setWidth 16
  | .disableCCA => (BitVec.ofBool p.disableCCA).setWidth 16

/-- `reg <- value[width-1:0]` (R115); a legal value loses no bit (R65). -/
def writePib (p : Pib) (r : PibReg) (value : Half) : Pib :=
  match r with
  | .minBE => { p with minBE := value.setWidth 4 }
  | .maxBE => { p with maxBE := value.setWidth 4 }
  | .maxCSMABackoffs => { p with maxCSMABackoffs := value.setWidth 3 }
  | .maxFrameRetries => { p with maxFrameRetries := value.setWidth 3 }
  | .ackWaitDuration => { p with ackWaitDuration := value }
  | .maxFrameTotalWaitTime => { p with maxFrameTotalWaitTime := value }
  | .transactionPersistenceTime => { p with transactionPersistenceTime := value }
  | .dsn => { p with dsn := value.setWidth 8 }
  | .rxOnWhenIdle => { p with rxOnWhenIdle := value.getLsbD 0 }
  | .disableCCA => { p with disableCCA := value.getLsbD 0 }

/-- `legal(attr, value)` (R116), against the registers at the start of the operation. `dsn` has no legal SET. -/
def legalPib (p : Pib) (r : PibReg) (value : Half) : Bool :=
  match r with
  | .minBE => decide (value.toNat ≤ p.maxBE.toNat)
  | .maxBE => decide (p.minBE.toNat ≤ value.toNat) && decide (value.toNat ≤ 8)
  | .maxCSMABackoffs => decide (value.toNat ≤ 5)
  | .maxFrameRetries => decide (value.toNat ≤ 7)
  | .ackWaitDuration => true
  | .maxFrameTotalWaitTime => true
  | .transactionPersistenceTime => true
  | .dsn => false
  | .rxOnWhenIdle => decide (value.toNat ≤ 1)
  | .disableCCA => decide (value.toNat ≤ 1)

/-- The agents that receive events (R285). -/
inductive Receiver where
  | host
  | radioDriver
deriving DecidableEq, Repr

/-- The one receiver of an event (R285, R286). -/
def Event.receiver : Event → Receiver
  | .confData _ _ => .host
  | .confPurge _ _ => .host
  | .confSet _ _ => .host
  | .confGet _ _ _ => .host
  | .confReset _ => .host
  | .confRxEnable _ => .host
  | .radioCca => .radioDriver
  | .radioTx _ _ _ _ => .radioDriver
  | .radioRx _ => .radioDriver

/-- The intended issuer of an operation (R290). The block does not check it (R291). -/
def intendedIssuer : Instr → Agent
  | .ccaResult _ => .radioDriver
  | .txDone => .radioDriver
  | .ackRx _ => .radioDriver
  | .tick _ => .tickSource
  | .indRelease _ => .pollLogic
  | .init _ => .host
  | .deinit => .host
  | .reset => .host
  | .pibSet _ _ => .host
  | .pibGet _ => .host
  | .hdrEncode _ _ => .host
  | .hdrDecode _ _ _ => .host
  | .frameParse _ _ => .host
  | .frameBuild _ _ _ => .host
  | .classify _ _ => .host
  | .dataReq _ _ _ _ => .host
  | .purge _ => .host
  | .rxEnable _ _ _ => .host
  | .isRxEnabled => .host
  | .startRx => .host

/-- The codec operations, accepted in every lifecycle state (spec/42_codec.md R148). -/
def isCodec : Instr → Bool
  | .hdrEncode _ _ => true
  | .hdrDecode _ _ _ => true
  | .frameParse _ _ => true
  | .frameBuild _ _ _ => true
  | .classify _ _ => true
  | .init _ => false
  | .deinit => false
  | .reset => false
  | .pibSet _ _ => false
  | .pibGet _ => false
  | .dataReq _ _ _ _ => false
  | .tick _ => false
  | .ccaResult _ => false
  | .txDone => false
  | .ackRx _ => false
  | .indRelease _ => false
  | .purge _ => false
  | .rxEnable _ _ _ => false
  | .isRxEnabled => false
  | .startRx => false

/-- RX_START (R93). -/
def rxStart (dur : Symbols) : Instr := .rxEnable false true dur
/-- RX_STOP (R93). -/
def rxStop : Instr := .rxEnable true false 0
/-- RX_RESTART (R93). -/
def rxRestart (dur : Symbols) : Instr := .rxEnable true true dur
/-- CCA_IDLE (R93). -/
def ccaIdle : Instr := .ccaResult false
/-- CCA_BUSY (R93). -/
def ccaBusy : Instr := .ccaResult true
/-- SEND h, l (R93). -/
def send (h l : Byte) : Instr := .dataReq h l false false
/-- SEND_ACK h, l (R93). -/
def sendAck (h l : Byte) : Instr := .dataReq h l false true
/-- HOLD h, l, a (R93). -/
def hold (h l : Byte) (a : Bool) : Instr := .dataReq h l true a

/-- A field of the assembly syntax in place: the named row field must exist and hold the value (R92). -/
def asmField (row : OpRow) (name : String) (value : Nat) : Option Word :=
  match row.fields.find? (fun f => f.1 == name) with
  | none => none
  | some (_, hi, lo) => if value < 2 ^ (hi - lo + 1) then some (BitVec.ofNat 32 (value <<< lo)) else none

/-- The fields written, in any order, each at most once; an omitted field is 0 (R92). -/
def asmFields (row : OpRow) : List (String × Nat) → Option Word
  | [] => some 0#32
  | (name, value) :: rest =>
    if rest.any (fun f => f.1 == name) then none
    else
      match asmField row name value, asmFields row rest with
      | some a, some b => some (a ||| b)
      | _, _ => none

/-- The word of one line of assembly, given as its mnemonic and its named fields (R92). DESIGN CHOICE, safe:
notes/assumptions/16.md. -/
def assemble (mnemonic : String) (fields : List (String × Nat)) : Option Word :=
  match opcodeTable.find? (fun r => r.mnemonic == mnemonic) with
  | none => none
  | some row => (asmFields row fields).map (fun f => row.value ||| f)

end Sys2Proof.Machine
end

