-- ==== Sys2Proof/Machine/Ops.lean ====
section
/-! DEFINITION. The shared operations: the state's named updates, the one refusal (spec/60_exceptions.md R281), which
stands where another hardware takes an exception (R280: the block has none), and the procedures of the spec's family
files. Each takes the parameters of spec/00_scope.md R7 it reads as an argument. -/

namespace Sys2Proof.Machine

/-! ## The state's named updates -/

def State.setLife (s : State) (v : Life) : State := { s with life := v }
def State.setPib (s : State) (v : Pib) : State := { s with pib := v }
def State.setEng (s : State) (v : Engine) : State := { s with eng := v }
def State.setQueue (s : State) (v : List Entry) : State := { s with queue := v }
def State.setWindow (s : State) (active : Bool) (timer : BitVec 24) : State :=
  { s with windowActive := active, windowTimer := timer }
def State.setRadioRx (s : State) (v : Bool) : State := { s with radioRx := v }
def State.setDraws (s : State) (v : Nat) : State := { s with draws := v }

/-- Append events to the output stream, in order (spec/00_scope.md R10, spec/60_exceptions.md R285). -/
def State.emitAll (s : State) (es : List Event) : State := { s with events := s.events ++ es }

/-- `emit E` (R10). -/
def State.emit (s : State) (e : Event) : State := s.emitAll [e]

/-- The response of the operation (spec/30_encoding.md R82). -/
def State.answer (s : State) (r : Response) : State := { s with responses := s.responses ++ [r] }

/-- `respond(1, value)` with an empty data-out buffer (R10, R82). -/
def State.respond (s : State) (value : Word) : State := s.answer ⟨true, value, []⟩

/-- The response of an operation that reaches no `respond`: (1, 0) (R10). -/
def State.done (s : State) : State := s.respond 0#32

/-- `refuse` (R10, R281): response (0, 0), no state change, no event, an empty data-out buffer. -/
def refuse (s : State) : State := s.answer ⟨false, 0#32, []⟩

/-- Take the operation at the head of the port: its data-in buffer is the current one (spec/20_memory.md R61). -/
def State.takeOp (s : State) (op : PortOp) (rest : List PortOp) : State := { s with port := rest, dataIn := op.dataIn }

/-! ## Receiver and lifecycle procedures -/

/-- The combined receiver decision, computed and not stored (spec/10_state.md R39, spec/45_rx_scheduler.md R250). -/
def rxOn (s : State) : Bool := s.pib.rxOnWhenIdle || s.windowActive

/-- ApplyRx() (spec/45_rx_scheduler.md R251). -/
def applyRx (s : State) : State := (s.setRadioRx (rxOn s)).emit (.radioRx (rxOn s))

/-- ClearBlock(src) (spec/41_pib_lifecycle.md R112): every register but `life`; no event. -/
def clearBlock (src : Pib) (s : State) : State :=
  ((((s.setPib src).setEng Engine.idle).setQueue []).setWindow false 0).setRadioRx false

/-- `draw_init()` (R111): the oracle's answer to the next question. FREE VALUE, notes/assumptions/5.md. -/
def drawInit (c : Params) (s : State) : Bool := c.initDraw s.draws

/-! ## Engine procedures (spec/43_csma_engine.md) -/

/-- `ccaLimit()` (R174). -/
def ccaLimit (c : Params) (e : Engine) : Nat :=
  match c.csmaAttemptsMode with
  | .docLiteral => e.sMaxCB.toNat
  | .nbExclusive => e.sMaxCB.toNat + 1

/-- `grow(BE)` (R175). -/
def grow (c : Params) (e : Engine) : BitVec 4 :=
  match c.beGrowth with
  | .increment => BitVec.ofNat 4 (min (e.BE.toNat + 1) e.sMaxBE.toNat)
  | .double => BitVec.ofNat 4 (min (2 * e.BE.toNat) e.sMaxBE.toNat)

/-- `draw_backoff(BE)` (R176): the oracle's answer to the next question, in 0 .. 2^BE - 1. FREE VALUE,
notes/assumptions/4.md. -/
def drawBackoff (c : Params) (s : State) : Nat := c.backoffDraw s.draws % 2 ^ s.eng.BE.toNat

/-- Finish(status) (R181): the request's one data confirm, and every engine register 0. -/
def finish (status : Status) (s : State) : State := (s.emit (.confData s.eng.handle status)).setEng Engine.idle

/-- The numbering of a request's first transmission (R180): `seq` from `dsn`, and `dsn` one more, wrapping. -/
def assignSeq (s : State) : State :=
  if s.eng.seqValid then s
  else (s.setPib { s.pib with dsn := s.pib.dsn + 1 }).setEng { s.eng with seq := s.pib.dsn, seqValid := true }

/-- The hand-over of a numbered frame to the radio (R180). -/
def sendFrame (s : State) : State :=
  (s.emit (.radioTx s.eng.seq s.eng.handle s.eng.len s.eng.ackReq)).setEng { s.eng with st := .txWait }

/-- Transmit() (R180). -/
def transmit (s : State) : State := sendFrame (assignSeq s)

/-- IssueCCA() (R179). -/
def issueCca (s : State) : State :=
  (s.emit .radioCca).setEng { s.eng with backoffTimer := 0, st := .ccaWait }

/-- StartBackoff() (R179): one draw, and the CCA at once when the backoff is zero. -/
def startBackoff (c : Params) (s : State) : State :=
  if drawBackoff c s * c.unitBackoffPeriod = 0 then issueCca (s.setDraws (s.draws + 1))
  else (s.setDraws (s.draws + 1)).setEng
    { s.eng with backoffTimer := drawBackoff c s * c.unitBackoffPeriod, st := .backoff }

/-- The registers a cycle starts with (R178). -/
def cycleStart (s : State) : State := s.setEng { s.eng with NB := 0, BE := s.eng.sMinBE }

/-- StartCycle() (R178). -/
def startCycle (c : Params) (s : State) : State :=
  if s.eng.sDisableCCA then transmit s
  else if ccaLimit c s.eng = 0 then finish .channelAccessFailure (cycleStart s)
  else startBackoff c (cycleStart s)

/-- The request and snapshot registers of an accepted request (R177, spec/10_state.md R29 and R30). -/
def latchRequest (h l : Byte) (a : Bool) (s : State) : State :=
  s.setEng { s.eng with
    handle := h, len := l, ackReq := a, sMinBE := s.pib.minBE, sMaxBE := s.pib.maxBE, sMaxCB := s.pib.maxCSMABackoffs,
    sMaxFR := s.pib.maxFrameRetries, sAckWait := s.pib.ackWaitDuration, sDisableCCA := s.pib.disableCCA,
    retries := 0, seq := 0, seqValid := false }

/-- The total timer of an accepted request (R177). -/
def loadTotal (s : State) : State := s.setEng { s.eng with totalTimer := s.pib.maxFrameTotalWaitTime }

/-- StartRequest(h, l, a) (R177). -/
def startRequest (c : Params) (h l : Byte) (a : Bool) (s : State) : State :=
  if s.pib.maxFrameTotalWaitTime = 0 then finish c.totalWaitStatus (latchRequest h l a s)
  else startCycle c (loadTotal (latchRequest h l a s))

/-- AckFail() (R182). -/
def ackFail (c : Params) (s : State) : State :=
  if s.eng.retries.toNat < s.eng.sMaxFR.toNat then
    startCycle c (s.setEng { s.eng with retries := s.eng.retries + 1 })
  else finish .noAck s

/-- Enqueue(h, l, a) (R172). -/
def enqueue (c : Params) (h l : Byte) (a : Bool) (s : State) : State :=
  if s.queue.length = c.indirectDepth then s.emit (.confData h .transactionOverflow)
  else if s.pib.transactionPersistenceTime = 0 then s.emit (.confData h .transactionExpired)
  else s.setQueue (s.queue ++ [⟨h, l, a, s.pib.transactionPersistenceTime⟩])

/-! ## Ticks

A timer that is 0 where it runs stands in no state a run reaches (R11): DESIGN CHOICE, safe, notes/assumptions/12.md. -/

/-- The part of EngineTick() after the total timer (R187): the timer of the engine's state. -/
def stateTick (c : Params) (s : State) : State :=
  match s.eng.st with
  | .backoff =>
    if s.eng.backoffTimer - 1 = 0 then issueCca (s.setEng { s.eng with backoffTimer := s.eng.backoffTimer - 1 })
    else s.setEng { s.eng with backoffTimer := s.eng.backoffTimer - 1 }
  | .ackWait =>
    if s.eng.ackTimer - 1 = 0 then ackFail c (s.setEng { s.eng with ackTimer := s.eng.ackTimer - 1 })
    else s.setEng { s.eng with ackTimer := s.eng.ackTimer - 1 }
  | .idle => s
  | .ccaWait => s
  | .txWait => s

/-- The total timer's decrement (R187). -/
def totalTick (s : State) : State := s.setEng { s.eng with totalTimer := s.eng.totalTimer - 1 }

/-- EngineTick() (R187): the total timer is tested first. -/
def engineTick (c : Params) (s : State) : State :=
  if s.eng.st = .idle then s
  else if s.eng.totalTimer - 1 = 0 then finish c.totalWaitStatus (totalTick s)
  else stateTick c (totalTick s)

/-- An entry one symbol later (spec/44_indirect_queue.md R226). -/
def Entry.aged (e : Entry) : Entry := { e with persist := e.persist - 1 }

/-- An entry whose persistence time has run out (R226). -/
def Entry.expired (e : Entry) : Bool := decide (e.persist = 0)

/-- QueueTick() (R226): one confirm for each entry that expires, though spec/60_exceptions.md R287 lists no such case.
DEDUCED, UNSAFE: notes/assumptions/24.md. -/
def queueTick (s : State) : State :=
  (s.emitAll (((s.queue.map Entry.aged).filter Entry.expired).map (fun e => .confData e.handle .transactionExpired))).setQueue
    ((s.queue.map Entry.aged).filter (fun e => !e.expired))

/-- WindowTick() (spec/45_rx_scheduler.md R255). -/
def windowTick (s : State) : State :=
  if s.windowActive then
    if s.windowTimer - 1 = 0 then applyRx (s.setWindow false 0) else s.setWindow true (s.windowTimer - 1)
  else s

/-- OneTick() (spec/43_csma_engine.md R186, spec/60_exceptions.md R289): engine, queue, window. So a window's RADIO_RX
follows a queue entry's confirm, though R287 puts radio events first. DEDUCED, UNSAFE: notes/assumptions/24.md. -/
def oneTick (c : Params) (s : State) : State := windowTick (queueTick (engineTick c s))

/-- `repeat n times: call OneTick()` (R186). -/
def ticks (c : Params) : Nat → State → State
  | 0, s => s
  | n + 1, s => ticks c n (oneTick c s)

/-! ## The indirect queue -/

/-- `find(h)` (spec/44_indirect_queue.md R220): the position of the oldest entry with the handle. -/
def findHandle (q : List Entry) (h : Byte) : Option Nat := q.findIdx? (fun e => decide (e.handle = h))

/-- The oldest entry with the handle: the one at position `find(h)` (R220). -/
def oldest (q : List Entry) (h : Byte) : Option Entry := q.find? (fun e => decide (e.handle = h))

/-- The queue without position `find(h)` (R222, R224). -/
def withoutOldest (q : List Entry) (h : Byte) : List Entry := q.eraseP (fun e => decide (e.handle = h))

end Sys2Proof.Machine
end

