-- ==== Sys2Proof/Machine/Codec.lean ====
section
/-! DEFINITION. The CHCI codec: HDR_ENCODE, HDR_DECODE, CLASSIFY, FRAME_PARSE and FRAME_BUILD (spec/42_codec.md). It reads
and writes no register and emits no event (R148); it never interprets payload bytes (R149). -/

namespace Sys2Proof.Machine

/-- The three header bytes: `code`, then the low and the high byte of `len` (spec/20_memory.md R62,
spec/30_encoding.md R94). -/
def headerBytes (code : Byte) (len : Half) : List Byte := [code, len.extractLsb' 0 8, len.extractLsb' 8 8]

/-- `byte1 | (byte2 << 8)` (R62). -/
def headerLen (b1 b2 : Byte) : Half := b1.setWidth 16 ||| b2.setWidth 16 <<< 8

/-- `classify(ch, code)` (R142, spec/30_encoding.md R95 to R97). -/
def classifyCode (ch : Channel) (code : Byte) : CodeClass :=
  match ch with
  | .commandEvent =>
    if 0x01 ≤ code.toNat ∧ code.toNat ≤ 0x0C then .command
    else if 0x0D ≤ code.toNat ∧ code.toNat ≤ 0x0F then .commandReserved
    else if 0x81 ≤ code.toNat ∧ code.toNat ≤ 0x91 then .event
    else if 0x92 ≤ code.toNat ∧ code.toNat ≤ 0xFF then .eventReserved
    else .invalid
  | .data =>
    if code = 0x01#8 then .dataReq
    else if code = 0x81#8 then .dataInd
    else .invalid

/-- `acceptable(ch, dir, code)` (R147). -/
def acceptable (ch : Channel) (dir : Direction) (code : Byte) : Bool :=
  match ch, dir with
  | .commandEvent, .inbound => decide (classifyCode ch code = .command)
  | .commandEvent, .outbound => decide (classifyCode ch code = .event)
  | .data, .inbound => decide (classifyCode ch code = .dataReq)
  | .data, .outbound => decide (classifyCode ch code = .dataInd)

/-- `{8'b0, x, y}` and `{status, code, len}` as response values (R141, R143). -/
def parseValue (status : Byte) (code : Byte) (len : Half) : Word := fieldAt status 24 ||| fieldAt code 16 ||| fieldAt len 0

/-- HDR_ENCODE(code, len) (R140): value[7:0] = byte 0, [15:8] = byte 1, [23:16] = byte 2. It writes the data-out buffer,
which spec/20_memory.md R60 (b) says only FRAME_PARSE and FRAME_BUILD reach: R140 is followed. DEDUCED, UNSAFE:
notes/assumptions/22.md. -/
def hdrEncode (code : Byte) (len : Half) : Response :=
  ⟨true, fieldAt (len.extractLsb' 8 8) 16 ||| fieldAt (len.extractLsb' 0 8) 8 ||| fieldAt code 0, headerBytes code len⟩

/-- HDR_DECODE(b0, b1, b2) (R141). -/
def hdrDecode (b0 b1 b2 : Byte) : Response := ⟨true, parseValue 0 b0 (headerLen b1 b2), []⟩

/-- CLASSIFY(code, ch) (R142). -/
def classify (code : Byte) (ch : Channel) : Response := ⟨true, (classifyCode ch code).number.setWidth 32, []⟩

/-- The response of FRAME_PARSE and FRAME_BUILD: `{status, code, len}` and the data-out buffer (R144). -/
def parseResponse (status : ParseStatus) (code : Byte) (len : Half) (out : List Byte) : Response :=
  ⟨true, parseValue status.number code len, out⟩

/-- FRAME_PARSE(ch, dir) of a data-in buffer (R143): short header, too long, length mismatch, bad code, in that order
(spec/60_exceptions.md R288). -/
def frameParse (c : Params) (dir : Direction) (ch : Channel) (buf : List Byte) : Response :=
  match buf with
  | code :: b1 :: b2 :: payload =>
    if c.maxChciPayload.toNat < (headerLen b1 b2).toNat then parseResponse .tooLong code (headerLen b1 b2) []
    else if (code :: b1 :: b2 :: payload).length ≠ 3 + (headerLen b1 b2).toNat then
      parseResponse .lengthMismatch code (headerLen b1 b2) []
    else if acceptable ch dir code = false then parseResponse .badCode code (headerLen b1 b2) []
    else parseResponse .ok code (headerLen b1 b2) payload
  | _ => parseResponse .shortHeader 0 0 []

/-- FRAME_BUILD(code, ch, dir) of a payload (R145): too long, then bad code. -/
def frameBuild (c : Params) (code : Byte) (dir : Direction) (ch : Channel) (buf : List Byte) : Response :=
  if c.maxChciPayload.toNat < buf.length then
    parseResponse .tooLong code (BitVec.ofNat 16 (min buf.length 0xFFFF)) []
  else if acceptable ch dir code = false then parseResponse .badCode code (BitVec.ofNat 16 buf.length) []
  else parseResponse .ok code (BitVec.ofNat 16 buf.length) (headerBytes code (BitVec.ofNat 16 buf.length) ++ buf)

def execHdrEncode (code : Byte) (len : Half) (s : State) : Host.Outcome State Fault Refusal :=
  .next (s.answer (hdrEncode code len))

def execHdrDecode (b0 b1 b2 : Byte) (s : State) : Host.Outcome State Fault Refusal :=
  .next (s.answer (hdrDecode b0 b1 b2))

def execFrameParse (dir : Direction) (ch : Channel) (s : State) : Host.Outcome State Fault Refusal :=
  .next (s.answer (frameParse Config.platform dir ch s.dataIn))

def execFrameBuild (code : Byte) (dir : Direction) (ch : Channel) (s : State) : Host.Outcome State Fault Refusal :=
  .next (s.answer (frameBuild Config.platform code dir ch s.dataIn))

def execClassify (code : Byte) (ch : Channel) (s : State) : Host.Outcome State Fault Refusal :=
  .next (s.answer (classify code ch))

end Sys2Proof.Machine
end

