-- ==== Sys2Proof/Machine/Csma.lean ====
section
/-! DEFINITION. The CSMA/CA engine's operations: DATA_REQ, TICK, CCA_RESULT, TX_DONE and ACK_RX
(spec/43_csma_engine.md R170, R183 to R187). -/

namespace Sys2Proof.Machine

/-- DATA_REQ(handle, len, ind, ack) (R170, spec/60_exceptions.md R288): length (R171), then indirect (R172), then busy
(R173), then acceptance (R177). -/
def dataReq (c : Params) (handle len : Byte) (ind ack : Bool) (s : State) : State :=
  if s.life = .on then
    if c.maxFrameLen.toNat < len.toNat then (s.emit (.confData handle .invalidParameter)).done
    else if ind then (enqueue c handle len ack s).done
    else if s.eng.st = .idle then (startRequest c handle len ack s).done
    else (s.emit (.confData handle .busy)).done
  else refuse s

/-- TICK(n) (R186). -/
def tick (c : Params) (n : Symbols) (s : State) : State :=
  if s.life = .on then (ticks c n.toNat s).done else refuse s

/-- The engine after a busy CCA: NB and BE grown (R183). -/
def busyCca (c : Params) (s : State) : State := s.setEng { s.eng with NB := s.eng.NB + 1, BE := grow c s.eng }

/-- CCA_RESULT(busy) (R183). -/
def ccaResult (c : Params) (busy : Bool) (s : State) : State :=
  if s.life = .on ∧ s.eng.st = .ccaWait then
    if busy then
      if ccaLimit c s.eng ≤ (busyCca c s).eng.NB.toNat then (finish .channelAccessFailure (busyCca c s)).done
      else (startBackoff c (busyCca c s)).done
    else (transmit s).done
  else refuse s

/-- TX_DONE() (R184). With `sAckWait` 0 and a retry left it emits RADIO_TX or RADIO_CCA (R182), which the 'emitted by'
column of spec/60_exceptions.md R286 leaves out for TX_DONE: R184 is followed. DEDUCED, UNSAFE:
notes/assumptions/23.md. -/
def txDone (c : Params) (s : State) : State :=
  if s.life = .on ∧ s.eng.st = .txWait then
    if s.eng.ackReq = false then (finish .success s).done
    else if s.eng.sAckWait = 0 then (ackFail c s).done
    else (s.setEng { s.eng with ackTimer := s.eng.sAckWait, st := .ackWait }).done
  else refuse s

/-- ACK_RX(s) (R185). -/
def ackRx (seq : Byte) (s : State) : State :=
  if s.life = .on ∧ s.eng.st = .ackWait ∧ seq = s.eng.seq then (finish .success s).done else refuse s

def execDataReq (handle len : Byte) (ind ack : Bool) (s : State) : Host.Outcome State Fault Refusal :=
  .next (dataReq Config.platform handle len ind ack s)

def execTick (n : Symbols) (s : State) : Host.Outcome State Fault Refusal := .next (tick Config.platform n s)

def execCcaResult (busy : Bool) (s : State) : Host.Outcome State Fault Refusal :=
  .next (ccaResult Config.platform busy s)

def execTxDone (s : State) : Host.Outcome State Fault Refusal := .next (txDone Config.platform s)

def execAckRx (seq : Byte) (s : State) : Host.Outcome State Fault Refusal := .next (ackRx seq s)

end Sys2Proof.Machine
end

