-- ==== Sys2Proof/Machine/Indirect.lean ====
section
/-! DEFINITION. The indirect queue's operations: IND_RELEASE and PURGE (spec/44_indirect_queue.md R222 to R228). -/

namespace Sys2Proof.Machine

/-- IND_RELEASE(h) (R222, spec/60_exceptions.md R288): not held, then busy, then released. -/
def indRelease (c : Params) (h : Byte) (s : State) : State :=
  if s.life = .on then
    match oldest s.queue h with
    | none => s.respond 1#32
    | some e =>
      if s.eng.st = .idle then
        (startRequest c e.handle e.len e.ackReq (s.setQueue (withoutOldest s.queue h))).respond 0#32
      else s.respond 2#32
  else refuse s

/-- PURGE(h) (R224). -/
def purge (h : Byte) (s : State) : State :=
  if s.life = .on then
    match oldest s.queue h with
    | none => (s.emit (.confPurge h .invalidHandle)).done
    | some _ => ((s.setQueue (withoutOldest s.queue h)).emit (.confPurge h .success)).done
  else refuse s

def execIndRelease (h : Byte) (s : State) : Host.Outcome State Fault Refusal := .next (indRelease Config.platform h s)

def execPurge (h : Byte) (s : State) : Host.Outcome State Fault Refusal := .next (purge h s)

end Sys2Proof.Machine
end

