-- ==== Sys2Proof/Machine/Lifecycle.lean ====
section
/-! DEFINITION. INIT, DEINIT, RESET, PIB_SET and PIB_GET (spec/41_pib_lifecycle.md R110 to R119). -/

namespace Sys2Proof.Machine

/-- INIT(ih) (R110); `ih` is ignored (spec/30_encoding.md R91). -/
def init (c : Params) (s : State) : State :=
  if s.life = .off then
    if drawInit c s then
      (applyRx ((clearBlock c.pibDefault (s.setDraws (s.draws + 1))).setLife .on)).respond 1#32
    else ((s.setDraws (s.draws + 1)).setLife .failed).respond 0#32
  else refuse s

/-- DEINIT() (R113). -/
def deinit (s : State) : State :=
  match s.life with
  | .failed => refuse s
  | .off => s.respond 0#32
  | .on => ((clearBlock Pib.zero s).setLife .off).done

/-- RESET() (R114). -/
def resetBlock (c : Params) (s : State) : State :=
  if s.life = .on then ((applyRx (clearBlock c.pibDefault s)).emit (.confReset .success)).done else refuse s

/-- The write of a legal PIB value (R115), which drives the receiver when it changes `rxOnWhenIdle`
(spec/45_rx_scheduler.md R256). -/
def writeReg (r : PibReg) (value : Half) (s : State) : State :=
  if (writePib s.pib r value).rxOnWhenIdle = s.pib.rxOnWhenIdle then s.setPib (writePib s.pib r value)
  else applyRx (s.setPib (writePib s.pib r value))

/-- PIB_SET(attr, value) (R115, spec/60_exceptions.md R288): unsupported, then read-only, then illegal value. -/
def pibSet (attr : Byte) (value : Half) (s : State) : State :=
  if s.life = .on then
    match attrReg attr with
    | none => (s.emit (.confSet attr .unsupportedAttribute)).done
    | some .dsn => (s.emit (.confSet attr .readOnly)).done
    | some r =>
      if legalPib s.pib r value then ((writeReg r value s).emit (.confSet attr .success)).done
      else (s.emit (.confSet attr .invalidParameter)).done
  else refuse s

/-- PIB_GET(attr) (R117). -/
def pibGet (attr : Byte) (s : State) : State :=
  if s.life = .on then
    match attrReg attr with
    | none => (s.emit (.confGet attr .unsupportedAttribute 0#16)).done
    | some r => (s.emit (.confGet attr .success (readPib s.pib r))).done
  else refuse s

def execInit (_ih : Bool) (s : State) : Host.Outcome State Fault Refusal := .next (init Config.platform s)

def execDeinit (s : State) : Host.Outcome State Fault Refusal := .next (deinit s)

def execReset (s : State) : Host.Outcome State Fault Refusal := .next (resetBlock Config.platform s)

def execPibSet (attr : Byte) (value : Half) (s : State) : Host.Outcome State Fault Refusal :=
  .next (pibSet attr value s)

def execPibGet (attr : Byte) (s : State) : Host.Outcome State Fault Refusal := .next (pibGet attr s)

end Sys2Proof.Machine
end

