-- ==== Sys2Proof/Machine/RxScheduler.lean ====
section
/-! DEFINITION. The RX-enable scheduler's operations: RX_ENABLE, IS_RX_ENABLED and START_RX
(spec/45_rx_scheduler.md R250 to R259). -/

namespace Sys2Proof.Machine

/-- The window after the stop flag, then the start flag (R252): stop is applied before start. -/
def windowAfterStop (stop : Bool) (s : State) : State := if stop then s.setWindow false 0 else s

/-- The start flag (R252): a window of length zero expires at once. -/
def windowAfterStart (start : Bool) (dur : Symbols) (s : State) : State :=
  if start then (if dur = 0 then s.setWindow false 0 else s.setWindow true dur) else s

/-- The window RX_ENABLE leaves (R252). -/
def moveWindow (stop start : Bool) (dur : Symbols) (s : State) : State :=
  windowAfterStart start dur (windowAfterStop stop s)

/-- RX_ENABLE(stop, start, dur) (R252): the receiver is driven when `windowActive` changed, before the confirm. -/
def rxEnable (stop start : Bool) (dur : Symbols) (s : State) : State :=
  if s.life = .on then
    if (moveWindow stop start dur s).windowActive = s.windowActive then
      ((moveWindow stop start dur s).emit (.confRxEnable .success)).done
    else ((applyRx (moveWindow stop start dur s)).emit (.confRxEnable .success)).done
  else refuse s

/-- IS_RX_ENABLED() (R253): computed from the inputs, not read from `radioRx`. -/
def isRxEnabled (s : State) : State := if s.life = .on then s.respond (bitWord (rxOn s)) else refuse s

/-- START_RX() (R254). -/
def startRx (s : State) : State := if s.life = .on then (applyRx s).done else refuse s

def execRxEnable (stop start : Bool) (dur : Symbols) (s : State) : Host.Outcome State Fault Refusal :=
  .next (rxEnable stop start dur s)

def execIsRxEnabled (s : State) : Host.Outcome State Fault Refusal := .next (isRxEnabled s)

def execStartRx (s : State) : Host.Outcome State Fault Refusal := .next (startRx s)

end Sys2Proof.Machine
end

