-- ==== Sys2Proof/Machine/Dispatch.lean ====
section
/-! DEFINITION. The meaning of every operation, one arm per constructor of `Instr`. -/

namespace Sys2Proof.Machine

def exec (i : Instr) (s : State) : Host.Outcome State Fault Refusal :=
  match i with
  | .init ih => Sys2Proof.Machine.execInit ih s
  | .deinit => Sys2Proof.Machine.execDeinit s
  | .reset => Sys2Proof.Machine.execReset s
  | .pibSet attr value => Sys2Proof.Machine.execPibSet attr value s
  | .pibGet attr => Sys2Proof.Machine.execPibGet attr s
  | .hdrEncode code len => Sys2Proof.Machine.execHdrEncode code len s
  | .hdrDecode b0 b1 b2 => Sys2Proof.Machine.execHdrDecode b0 b1 b2 s
  | .frameParse dir ch => Sys2Proof.Machine.execFrameParse dir ch s
  | .frameBuild code dir ch => Sys2Proof.Machine.execFrameBuild code dir ch s
  | .classify code ch => Sys2Proof.Machine.execClassify code ch s
  | .dataReq handle len ind ack => Sys2Proof.Machine.execDataReq handle len ind ack s
  | .tick n => Sys2Proof.Machine.execTick n s
  | .ccaResult busy => Sys2Proof.Machine.execCcaResult busy s
  | .txDone => Sys2Proof.Machine.execTxDone s
  | .ackRx seq => Sys2Proof.Machine.execAckRx seq s
  | .indRelease handle => Sys2Proof.Machine.execIndRelease handle s
  | .purge handle => Sys2Proof.Machine.execPurge handle s
  | .rxEnable stop start dur => Sys2Proof.Machine.execRxEnable stop start dur s
  | .isRxEnabled => Sys2Proof.Machine.execIsRxEnabled s
  | .startRx => Sys2Proof.Machine.execStartRx s

end Sys2Proof.Machine
end

