-- ==== Sys2Proof/Machine/Step.lean ====
section
/-! DEFINITION. One step: take the operation at the head of the port, decode its word and run it (spec/10_state.md R21,
spec/20_memory.md R66, spec/30_encoding.md R86 and R87). -/

namespace Sys2Proof.Machine

/-- One operation of the block. An illegal word is refused with the response (0, 0) in every lifecycle state (R87). With
no operation presented the block waits: `portIdle`, notes/assumptions/2.md. -/
def step (s : State) : Host.Outcome State Fault Refusal :=
  match s.port with
  | [] => .fault .portIdle
  | op :: rest =>
    match decode op.word with
    | .ok i => exec i (s.takeOp op rest)
    | .error _ => .next (refuse (s.takeOp op rest))

/-- Present the operation of an opcode-table word, with an empty data-in buffer, before every other operation of the
port: the next step takes it. notes/assumptions/1.md. -/
def State.withFetchWord (s : State) (nbits w : Nat) : State :=
  { s with port := ⟨.host, tableWord nbits w, []⟩ :: s.port }

end Sys2Proof.Machine
end

