-- ==== Sys2Proof/Safety.lean ====
section
/-! DEFINITION. What the statements speak of: the invariant of the block's registers (spec/10_state.md R24 to R39,
spec/43_csma_engine.md R213, spec/44_indirect_queue.md R221, spec/45_rx_scheduler.md R258), the requests that are owed a
confirm (spec/43_csma_engine.md R191), and what a run can observe (spec/10_state.md R42 and R43). -/

namespace Sys2Proof.Machine

/-- The engine's registers while the block is ON (R28 to R35, R213). -/
structure EngineInv (c : Params) (e : Engine) : Prop where
  /-- R35: with no request every register is 0 -/
  idle : e.st = .idle → e = Engine.idle
  /-- R34: a request has time left -/
  total : e.st ≠ .idle → 1 ≤ e.totalTimer.toNat
  /-- R30: the snapshot keeps the PIB's bounds -/
  snapBE : e.sMinBE.toNat ≤ e.sMaxBE.toNat ∧ e.sMaxBE.toNat ≤ 8
  snapCB : e.sMaxCB.toNat ≤ 5
  /-- R171: an accepted request is not oversized -/
  len : e.len.toNat ≤ c.maxFrameLen.toNat
  /-- R31: the exponent and the busy count of a continuing cycle, in which CCA is not disabled (R178) -/
  cycle : e.st = .backoff ∨ e.st = .ccaWait →
    e.sMinBE.toNat ≤ e.BE.toNat ∧ e.BE.toNat ≤ e.sMaxBE.toNat ∧ e.NB.toNat < ccaLimit c e ∧ e.sDisableCCA = false
  /-- R31: retry cycles started -/
  retries : e.retries.toNat ≤ e.sMaxFR.toNat
  /-- R33: the backoff timer runs exactly in BACKOFF, within its width -/
  backoff : e.st = .backoff → 1 ≤ e.backoffTimer ∧ e.backoffTimer ≤ 255 * c.unitBackoffPeriod
  noBackoff : e.st ≠ .backoff → e.backoffTimer = 0
  /-- R34: the ACK timer runs exactly in ACK_WAIT -/
  ack : e.st = .ackWait → 1 ≤ e.ackTimer.toNat ∧ e.ackTimer.toNat ≤ e.sAckWait.toNat ∧ e.ackReq = true
  noAck : e.st ≠ .ackWait → e.ackTimer = 0
  /-- R32, R35: a frame handed to the radio has its number -/
  numbered : e.st = .txWait ∨ e.st = .ackWait → e.seqValid = true
  unnumbered : e.seqValid = false → e.seq = 0

/-- The value of the last RADIO_RX of the output stream (R38, R258). -/
def lastRadioRx (es : List Event) : Option Bool :=
  es.foldl (fun acc e => match e with | .radioRx on => some on | _ => acc) none

/-- The invariant of the block. Before INIT and after DEINIT or a failed INIT it asks only that the receiver register is
0 (R38, R43). -/
structure Inv (c : Params) (s : State) : Prop where
  /-- R38, R311 -/
  off : s.life ≠ .on → s.radioRx = false
  /-- R24, R25 -/
  pib : s.life = .on → s.pib.wf = true
  /-- R28 to R35 -/
  eng : s.life = .on → EngineInv c s.eng
  /-- R36, R221 -/
  depth : s.life = .on → s.queue.length ≤ c.indirectDepth
  entries : s.life = .on → ∀ e ∈ s.queue, 1 ≤ e.persist.toNat ∧ e.len.toNat ≤ c.maxFrameLen.toNat
  /-- R37 -/
  window : s.life = .on → (s.windowActive = true ↔ s.windowTimer ≠ 0)
  /-- R39, R258 -/
  receiver : s.life = .on → s.radioRx = rxOn s ∧ lastRadioRx s.events = some s.radioRx

/-- CONF_DATA events of a handle (R191). -/
def confirmsOf (h : Byte) (es : List Event) : Nat :=
  es.countP (fun e => match e with | .confData h' _ => decide (h' = h) | _ => false)

/-- RADIO_TX events (R194). -/
def transmissions (es : List Event) : Nat := es.countP (fun e => match e with | .radioTx _ _ _ _ => true | _ => false)

/-- RADIO_CCA events (R194). -/
def ccaRequests (es : List Event) : Nat := es.countP (fun e => match e with | .radioCca => true | _ => false)

/-- The RADIO_RX events: the receiver's part of the output stream (R251). -/
def Event.isRadioRx (e : Event) : Bool := match e with | .radioRx _ => true | _ => false

/-- The confirms of the held entries that expire in the first `n` ticks: tick by tick, oldest first within a tick
(spec/44_indirect_queue.md R226). -/
def expiryConfirms (q : List Entry) : Nat → List Event
  | 0 => []
  | n + 1 =>
    expiryConfirms q n ++
      (q.filter (fun e => decide (e.persist.toNat = n + 1))).map (fun e => .confData e.handle .transactionExpired)

/-- The requests of a handle that are owed a confirm: the held ones and the one in the engine (R191). -/
def liveRequests (s : State) (h : Byte) : Nat :=
  s.queue.countP (fun e => decide (e.handle = h)) + (if s.eng.st ≠ .idle ∧ s.eng.handle = h then 1 else 0)

/-- One for a DATA_REQ of the handle: the request it submits (R191). -/
def submits (i : Instr) (h : Byte) : Nat :=
  match i with
  | .dataReq h' _ _ _ => if h' = h then 1 else 0
  | _ => 0

/-- The transmissions the request in the engine may still make (R194): the cycles left, and the current one while its
frame has not been handed over. -/
def transmissionsLeft (e : Engine) : Nat :=
  match e.st with
  | .idle => 0
  | .backoff => e.sMaxFR.toNat - e.retries.toNat + 1
  | .ccaWait => e.sMaxFR.toNat - e.retries.toNat + 1
  | .txWait => e.sMaxFR.toNat - e.retries.toNat
  | .ackWait => e.sMaxFR.toNat - e.retries.toNat

/-- The CCA requests the request in the engine may still make (R194): `ccaLimit()` in each cycle left, and in the current
one those its busy results leave, less the one already asked for. -/
def ccaRequestsLeft (c : Params) (e : Engine) : Nat :=
  match e.st with
  | .idle => 0
  | .backoff => (e.sMaxFR.toNat - e.retries.toNat) * ccaLimit c e + (ccaLimit c e - e.NB.toNat)
  | .ccaWait => (e.sMaxFR.toNat - e.retries.toNat) * ccaLimit c e + (ccaLimit c e - e.NB.toNat - 1)
  | .txWait => (e.sMaxFR.toNat - e.retries.toNat) * ccaLimit c e
  | .ackWait => (e.sMaxFR.toNat - e.retries.toNat) * ccaLimit c e

/-- Two states no run can tell apart (R42, R43): the same lifecycle, receiver, port side and observation, and, once the
block is ON, the same registers. -/
def Indistinguishable (a b : State) : Prop :=
  a.life = b.life ∧ a.radioRx = b.radioRx ∧ a.port = b.port ∧ a.dataIn = b.dataIn ∧ a.events = b.events ∧
    a.responses = b.responses ∧ a.draws = b.draws ∧ (a.life = .on → a = b)

end Sys2Proof.Machine
end

