-- ==== Sys2Proof/Certificates/Slice0/Obligations.lean ====
section
/-! DEFINITION. The statements for the provers. Each docstring names the rule of spec/ it formalises, or says that it is
the model's own. -/

open Sys2Proof Sys2Proof.Machine

/-! ## Encoding -/

/-- R83 to R86: decoding the encoding of an operation gives the operation back, whatever its operands. -/
def Obligations.DecodeOfEncodeIsTheOperation : Prop := ∀ i : Instr, decode (encode i) = .ok i

/-- R86: a legal word has one reading, whose encoding is that word; so no bit of it is dropped. -/
def Obligations.EncodeOfDecodeIsTheWord : Prop := ∀ (w : Word) (i : Instr), decode w = .ok i → encode i = w

/-- R83, R85, R86: a word is legal exactly when it matches the fixed bits of a row of the opcode table, and its reading
is an operation of that row's mnemonic. -/
def Obligations.LegalWordsAreTheTableRows : Prop :=
  ∀ w : Word,
    (∀ i, decode w = .ok i → ∃ r ∈ opcodeTable, r.mnemonic = i.mnemonic ∧ r.covers w = true) ∧
    ((∃ r ∈ opcodeTable, r.covers w = true) → ∃ i, decode w = .ok i)

/-- Words written out in the examples of the spec decode to the operations they stand for (a sanity statement). -/
def Obligations.SpecExampleWordsDecode : Prop :=
  decode 0x01000001#32 = .ok (.init true) ∧
  decode 0x02000000#32 = .ok .deinit ∧
  decode 0x04570002#32 = .ok (.pibSet 0x57 2) ∧
  decode 0x10810102#32 = .ok (.hdrEncode 0x81 0x0102) ∧
  decode 0x12000001#32 = .ok (.frameParse .inbound .data) ∧
  decode 0x20071401#32 = .ok (.dataReq 7 20 false true) ∧
  decode 0x21000014#32 = .ok (.tick 20) ∧
  decode 0x24000010#32 = .ok (.ackRx 0x10) ∧
  decode 0x30040000#32 = .ok (.indRelease 4) ∧
  decode 0x41000005#32 = .ok (.rxEnable false true 5) ∧
  decode 0x01000002#32 = .error .reservedBitSet ∧
  decode 0x4A000000#32 = .error .unassignedCode

/-- R93: the words of the pseudo-operations. -/
def Obligations.PseudoOperationWords : Prop :=
  ∀ (d : Symbols) (h l : Byte) (a : Bool),
    encode (rxStart d) = 0x41000000#32 + d.setWidth 32 ∧
    encode rxStop = 0x42000000#32 ∧
    encode (rxRestart d) = 0x43000000#32 + d.setWidth 32 ∧
    encode ccaIdle = 0x22000000#32 ∧
    encode ccaBusy = 0x22000001#32 ∧
    encode (send h l) = 0x20000000#32 + h.setWidth 32 * 0x10000#32 + l.setWidth 32 * 0x100#32 ∧
    encode (sendAck h l) = 0x20000001#32 + h.setWidth 32 * 0x10000#32 + l.setWidth 32 * 0x100#32 ∧
    encode (hold h l a) =
      0x20000002#32 + h.setWidth 32 * 0x10000#32 + l.setWidth 32 * 0x100#32 + (if a then 1#32 else 0#32) ∧
    rxStart d = .rxEnable false true d ∧ rxStop = .rxEnable true false 0 ∧ rxRestart d = .rxEnable true true d ∧
    ccaIdle = .ccaResult false ∧ ccaBusy = .ccaResult true ∧ send h l = .dataReq h l false false ∧
    sendAck h l = .dataReq h l false true ∧ hold h l a = .dataReq h l true a

/-- R63: an operation word carried as bytes, byte 0 being bits 7..0, decodes to its operation and leaves the bytes that
follow. -/
def Obligations.LittleEndianTransportDecodes : Prop :=
  ∀ (i : Instr) (rest : List Byte), decodeBytes (wordBytes (encode i) ++ rest) = .ok (i, rest)

/-! ## The step -/

/-- A step takes the operation at the head of the port, makes its buffer the current one, and runs it (R66, R80). That the
presented operations stand in the state is the model's choice (notes/assumptions/1.md). -/
def Obligations.StepRunsTheDecodedOperation : Prop :=
  ∀ (s : State) (op : PortOp) (rest : List PortOp) (i : Instr), s.port = op :: rest → decode op.word = .ok i →
    step s = exec i { s with port := rest, dataIn := op.dataIn }

/-- R87: an illegal word is refused in every lifecycle state, with no state change and no event; the unassigned codes are
those R87 lists, and each makes its words illegal; a word is illegal exactly when it is no operation's word, so there is no
hint, reserved-but-legal or custom encoding. -/
def Obligations.IllegalWordsAreRefused : Prop :=
  (∀ (s : State) (op : PortOp) (rest : List PortOp) (e : DecodeError), s.port = op :: rest →
    decode op.word = .error e →
    step s = .next { s with port := rest, dataIn := op.dataIn, responses := s.responses ++ [⟨false, 0, []⟩] }) ∧
  (∀ w : Word, decode w = .error .unassignedCode ↔
    ((opcOf w).toNat = 0 ∨ (6 ≤ (opcOf w).toNat ∧ (opcOf w).toNat ≤ 0x0F) ∨
      (0x15 ≤ (opcOf w).toNat ∧ (opcOf w).toNat ≤ 0x1F) ∨ (0x25 ≤ (opcOf w).toNat ∧ (opcOf w).toNat ≤ 0x2F) ∨
      (0x32 ≤ (opcOf w).toNat ∧ (opcOf w).toNat ≤ 0x3F) ∨ (0x44 ≤ (opcOf w).toNat ∧ (opcOf w).toNat ≤ 0x47) ∨
      (0x4A ≤ (opcOf w).toNat ∧ (opcOf w).toNat ≤ 0xFF))) ∧
  (∀ w : Word, (∃ e, decode w = .error e) ↔ ∀ i, encode i ≠ w)

/-- R281: every condition of the refusal table. Refusal is the response (0, 0), no state change, no event and an empty
data-out buffer; a codec operation is never refused. -/
def Obligations.RefusalTable : Prop :=
  (∀ (s : State) (op : PortOp) (rest : List PortOp) (e : DecodeError), s.port = op :: rest →
    decode op.word = .error e →
    step s = .next { s with port := rest, dataIn := op.dataIn, responses := s.responses ++ [⟨false, 0, []⟩] }) ∧
  (∀ (s : State) (ih : Bool), s.life ≠ .off →
    exec (.init ih) s = .next { s with responses := s.responses ++ [⟨false, 0, []⟩] }) ∧
  (∀ s : State, s.life = .failed → exec .deinit s = .next { s with responses := s.responses ++ [⟨false, 0, []⟩] }) ∧
  (∀ (s : State) (i : Instr), s.life ≠ .on → isCodec i = false → (∀ ih, i ≠ .init ih) → i ≠ .deinit →
    exec i s = .next { s with responses := s.responses ++ [⟨false, 0, []⟩] }) ∧
  (∀ (s : State) (busy : Bool), s.eng.st ≠ .ccaWait →
    exec (.ccaResult busy) s = .next { s with responses := s.responses ++ [⟨false, 0, []⟩] }) ∧
  (∀ s : State, s.eng.st ≠ .txWait → exec .txDone s = .next { s with responses := s.responses ++ [⟨false, 0, []⟩] }) ∧
  (∀ (s : State) (seq : Byte), s.eng.st ≠ .ackWait ∨ seq ≠ s.eng.seq →
    exec (.ackRx seq) s = .next { s with responses := s.responses ++ [⟨false, 0, []⟩] }) ∧
  (∀ (s : State) (i : Instr), isCodec i = true →
    ∃ r : Response, r.handled = true ∧ exec i s = .next { s with responses := s.responses ++ [r] })

/-- R66, R69, R82: an operation gives exactly one response, and the output stream only grows. That both stand
in the state is the model's choice (notes/assumptions/8.md). -/
def Obligations.OneResponseAndAppendedEvents : Prop :=
  ∀ s t : State, step s = .next t →
    (∃ r : Response, t.responses = s.responses ++ [r]) ∧ (∃ es : List Event, t.events = s.events ++ es) ∧
    (∃ op : PortOp, s.port = op :: t.port ∧ t.dataIn = op.dataIn)

/-- R290, R291: who issued an operation changes nothing. -/
def Obligations.IssuerIsNotRead : Prop :=
  ∀ (s : State) (a b : Agent) (w : Word) (d : List Byte) (rest : List PortOp),
    step { s with port := ⟨a, w, d⟩ :: rest } = step { s with port := ⟨b, w, d⟩ :: rest }

/-! ## Lifecycle -/

/-- R110 to R112: INIT from OFF. The oracle's answer decides; success loads the PIB defaults, clears everything else,
drives the receiver and answers 1; failure only moves `life` to FAILED and answers 0. `ih` has no effect (R91). The
oracle's answer is a free value (notes/assumptions/5.md). -/
def Obligations.InitFromOff : Prop :=
  ∀ (ih : Bool) (s : State), s.life = .off →
    exec (.init ih) s = .next
      (if Config.initDraw s.draws then
        { s with
          life := .on, pib := Config.pibDefault, eng := Engine.idle, queue := [], windowActive := false,
          windowTimer := 0, radioRx := Config.pibDefault.rxOnWhenIdle,
          events := s.events ++ [.radioRx Config.pibDefault.rxOnWhenIdle],
          responses := s.responses ++ [⟨true, 1, []⟩], draws := s.draws + 1 }
      else
        { s with life := .failed, responses := s.responses ++ [⟨true, 0, []⟩], draws := s.draws + 1 })

/-- R113: DEINIT from ON zeroes every register and emits nothing; from OFF it changes nothing. -/
def Obligations.DeinitTearsDown : Prop :=
  (∀ s : State, s.life = .on →
    exec .deinit s = .next
      { s with
        life := .off, pib := Pib.zero, eng := Engine.idle, queue := [], windowActive := false, windowTimer := 0,
        radioRx := false, responses := s.responses ++ [⟨true, 0, []⟩] }) ∧
  (∀ s : State, s.life = .off → exec .deinit s = .next { s with responses := s.responses ++ [⟨true, 0, []⟩] })

/-- R114, R314: RESET ends all activity: the PIB defaults (`dsn` among them), no request, no held entry, no window; the
only events are RADIO_RX and CONF_RESET; a radio event that comes later for the abandoned request is refused. -/
def Obligations.ResetEndsAllActivity : Prop :=
  ∀ s : State, s.life = .on →
    ∃ t : State, exec .reset s = .next t ∧
      t = { s with
        pib := Config.pibDefault, eng := Engine.idle, queue := [], windowActive := false, windowTimer := 0,
        radioRx := Config.pibDefault.rxOnWhenIdle,
        events := s.events ++ [.radioRx Config.pibDefault.rxOnWhenIdle, .confReset .success],
        responses := s.responses ++ [⟨true, 0, []⟩] } ∧
      (∀ i : Instr, (∃ b, i = .ccaResult b) ∨ i = .txDone ∨ (∃ q, i = .ackRx q) →
        exec i t = .next { t with responses := t.responses ++ [⟨false, 0, []⟩] })

/-- R22: only INIT and DEINIT write `life`. -/
def Obligations.OnlyInitAndDeinitWriteLife : Prop :=
  ∀ (i : Instr) (s t : State), exec i s = .next t → (∀ ih, i ≠ .init ih) → i ≠ .deinit → t.life = s.life

/-- R284: FAILED is terminal: no step leaves it or changes any register, and every non-codec operation is refused. -/
def Obligations.FailedInitIsTerminal : Prop :=
  ∀ s : State, s.life = .failed →
    (∀ t, step s = .next t → t.life = .failed ∧ t.pib = s.pib ∧ t.eng = s.eng ∧ t.queue = s.queue ∧
      t.windowActive = s.windowActive ∧ t.windowTimer = s.windowTimer ∧ t.radioRx = s.radioRx ∧ t.events = s.events) ∧
    (∀ i : Instr, isCodec i = false → exec i s = .next { s with responses := s.responses ++ [⟨false, 0, []⟩] })

/-! ## PIB access -/

/-- R115, R116, R256: a legal PIB_SET writes its register, nothing else of the PIB, and confirms SUCCESS; a SET that
changes `rxOnWhenIdle` drives the receiver before the confirm. -/
def Obligations.PibSetWritesALegalValue : Prop :=
  ∀ (s : State) (v : Half), s.life = .on →
    (v.toNat ≤ s.pib.maxBE.toNat →
      exec (.pibSet 0x4F v) s = .next { s with
        pib := { s.pib with minBE := v.setWidth 4 },
        events := s.events ++ [.confSet 0x4F .success], responses := s.responses ++ [⟨true, 0, []⟩] }) ∧
    (s.pib.minBE.toNat ≤ v.toNat → v.toNat ≤ 8 →
      exec (.pibSet 0x57 v) s = .next { s with
        pib := { s.pib with maxBE := v.setWidth 4 },
        events := s.events ++ [.confSet 0x57 .success], responses := s.responses ++ [⟨true, 0, []⟩] }) ∧
    (v.toNat ≤ 5 →
      exec (.pibSet 0x4E v) s = .next { s with
        pib := { s.pib with maxCSMABackoffs := v.setWidth 3 },
        events := s.events ++ [.confSet 0x4E .success], responses := s.responses ++ [⟨true, 0, []⟩] }) ∧
    (v.toNat ≤ 7 →
      exec (.pibSet 0x59 v) s = .next { s with
        pib := { s.pib with maxFrameRetries := v.setWidth 3 },
        events := s.events ++ [.confSet 0x59 .success], responses := s.responses ++ [⟨true, 0, []⟩] }) ∧
    exec (.pibSet 0x40 v) s = .next { s with
      pib := { s.pib with ackWaitDuration := v },
      events := s.events ++ [.confSet 0x40 .success], responses := s.responses ++ [⟨true, 0, []⟩] } ∧
    exec (.pibSet 0x58 v) s = .next { s with
      pib := { s.pib with maxFrameTotalWaitTime := v },
      events := s.events ++ [.confSet 0x58 .success], responses := s.responses ++ [⟨true, 0, []⟩] } ∧
    exec (.pibSet 0x55 v) s = .next { s with
      pib := { s.pib with transactionPersistenceTime := v },
      events := s.events ++ [.confSet 0x55 .success], responses := s.responses ++ [⟨true, 0, []⟩] } ∧
    (∀ b : Bool,
      exec (.pibSet 0x80 (if b then 1 else 0)) s = .next { s with
        pib := { s.pib with disableCCA := b },
        events := s.events ++ [.confSet 0x80 .success], responses := s.responses ++ [⟨true, 0, []⟩] } ∧
      exec (.pibSet 0x52 (if b then 1 else 0)) s = .next
        (if b = s.pib.rxOnWhenIdle then
          { s with events := s.events ++ [.confSet 0x52 .success], responses := s.responses ++ [⟨true, 0, []⟩] }
        else
          { s with
            pib := { s.pib with rxOnWhenIdle := b }, radioRx := b || s.windowActive,
            events := s.events ++ [.radioRx (b || s.windowActive), .confSet 0x52 .success],
            responses := s.responses ++ [⟨true, 0, []⟩] }))

/-- R115, R288: a PIB_SET that fails a check changes no register and confirms the first check that fails. -/
def Obligations.PibSetReportsTheFirstFailedCheck : Prop :=
  ∀ (s : State) (attr : Byte) (v : Half), s.life = .on →
    (attr ∉ [0x40#8, 0x4C#8, 0x4E#8, 0x4F#8, 0x52#8, 0x55#8, 0x57#8, 0x58#8, 0x59#8, 0x80#8] →
      exec (.pibSet attr v) s = .next { s with
        events := s.events ++ [.confSet attr .unsupportedAttribute],
        responses := s.responses ++ [⟨true, 0, []⟩] }) ∧
    exec (.pibSet 0x4C v) s = .next { s with
      events := s.events ++ [.confSet 0x4C .readOnly],
      responses := s.responses ++ [⟨true, 0, []⟩] } ∧
    ((attr = 0x4F#8 ∧ s.pib.maxBE.toNat < v.toNat) ∨
      (attr = 0x57#8 ∧ (v.toNat < s.pib.minBE.toNat ∨ 8 < v.toNat)) ∨ (attr = 0x4E#8 ∧ 5 < v.toNat) ∨
      (attr = 0x59#8 ∧ 7 < v.toNat) ∨ (attr = 0x52#8 ∧ 1 < v.toNat) ∨ (attr = 0x80#8 ∧ 1 < v.toNat) →
      exec (.pibSet attr v) s = .next { s with
        events := s.events ++ [.confSet attr .invalidParameter],
        responses := s.responses ++ [⟨true, 0, []⟩] })

/-- R117: PIB_GET reports each register zero-extended to 16 bits, and UNSUPPORTED_ATTRIBUTE for every other identifier; it
changes no register. -/
def Obligations.PibGetReportsTheRegister : Prop :=
  ∀ (s : State) (attr : Byte), s.life = .on →
    exec (.pibGet attr) s = .next { s with
      events := s.events ++
        [if attr = 0x4F#8 then .confGet attr .success (s.pib.minBE.setWidth 16)
         else if attr = 0x57#8 then .confGet attr .success (s.pib.maxBE.setWidth 16)
         else if attr = 0x4E#8 then .confGet attr .success (s.pib.maxCSMABackoffs.setWidth 16)
         else if attr = 0x59#8 then .confGet attr .success (s.pib.maxFrameRetries.setWidth 16)
         else if attr = 0x40#8 then .confGet attr .success s.pib.ackWaitDuration
         else if attr = 0x58#8 then .confGet attr .success s.pib.maxFrameTotalWaitTime
         else if attr = 0x55#8 then .confGet attr .success s.pib.transactionPersistenceTime
         else if attr = 0x4C#8 then .confGet attr .success (s.pib.dsn.setWidth 16)
         else if attr = 0x52#8 then .confGet attr .success (if s.pib.rxOnWhenIdle then 1 else 0)
         else if attr = 0x80#8 then .confGet attr .success (if s.pib.disableCCA then 1 else 0)
         else .confGet attr .unsupportedAttribute 0],
      responses := s.responses ++ [⟨true, 0, []⟩] }

/-- R118: a PIB_GET after a successful PIB_SET reports the value written, as long as no operation wrote the register in
between; and the operations that write a PIB register are PIB_SET, INIT, RESET and DEINIT, and for `dsn` alone the
engine. -/
def Obligations.PibReadAfterWrite : Prop :=
  (∀ (s t u : State) (attr : Byte) (v : Half) (r : PibReg), s.life = .on → exec (.pibSet attr v) s = .next t →
    (∃ es, t.events = s.events ++ es ∧ Event.confSet attr .success ∈ es) → attrReg attr = some r →
    u.life = .on → readPib u.pib r = readPib t.pib r →
    exec (.pibGet attr) u = .next { u with
      events := u.events ++ [.confGet attr .success v],
      responses := u.responses ++ [⟨true, 0, []⟩] }) ∧
  (∀ (i : Instr) (s t : State), exec i s = .next t → (∀ ih, i ≠ .init ih) → i ≠ .deinit → i ≠ .reset →
    (∀ (r : PibReg), r ≠ .dsn → readPib t.pib r ≠ readPib s.pib r →
      ∃ attr v, i = .pibSet attr v ∧ attrReg attr = some r) ∧
    (t.pib.dsn ≠ s.pib.dsn → ∃ es, t.events = s.events ++ es ∧ 1 ≤ transmissions es))

/-- R324: moving the pair (minBE, maxBE) to a legal pair (a, b). When a exceeds the current maxBE, maxBE goes first and
minBE first fails; when b is below the current minBE, minBE goes first and maxBE first fails. A failed first SET is
INVALID_PARAMETER and changes no register. -/
def Obligations.BackoffBoundsMoveInTheRightOrder : Prop :=
  ∀ (s : State) (a b : BitVec 4), s.life = .on → s.pib.wf = true → a.toNat ≤ b.toNat → b.toNat ≤ 8 →
    (s.pib.maxBE.toNat < a.toNat →
      (∃ t u, exec (.pibSet 0x57 (b.setWidth 16)) s = .next t ∧ exec (.pibSet 0x4F (a.setWidth 16)) t = .next u ∧
        u.pib = { s.pib with minBE := a, maxBE := b }) ∧
      exec (.pibSet 0x4F (a.setWidth 16)) s = .next { s with
        events := s.events ++ [.confSet 0x4F .invalidParameter], responses := s.responses ++ [⟨true, 0, []⟩] }) ∧
    (b.toNat < s.pib.minBE.toNat →
      (∃ t u, exec (.pibSet 0x4F (a.setWidth 16)) s = .next t ∧ exec (.pibSet 0x57 (b.setWidth 16)) t = .next u ∧
        u.pib = { s.pib with minBE := a, maxBE := b }) ∧
      exec (.pibSet 0x57 (b.setWidth 16)) s = .next { s with
        events := s.events ++ [.confSet 0x57 .invalidParameter], responses := s.responses ++ [⟨true, 0, []⟩] })

/-! ## Codec -/

/-- R140, R141: the header bytes in order, code first and the length little-endian, and the value that carries them; and
the code and length read back from three bytes. That the bytes stand in the data-out buffer, as R140 says and R60 (b) does
not, is the model's reading (notes/assumptions/22.md). -/
def Obligations.HeaderEncodeAndDecode : Prop :=
  ∀ (s : State) (code b1 b2 : Byte) (len : Half),
    exec (.hdrEncode code len) s = .next { s with
      responses := s.responses ++
      [⟨true, 0#8 ++ len.extractLsb' 8 8 ++ len.extractLsb' 0 8 ++ code,
        [code, len.extractLsb' 0 8, len.extractLsb' 8 8]⟩] } ∧
    exec (.hdrDecode code b1 b2) s = .next { s with
      responses := s.responses ++
      [⟨true, 0#8 ++ code ++ b2 ++ b1, []⟩] }

/-- R142, R95 to R98: the class number of a code on a channel. -/
def Obligations.ClassifyGivesTheClassNumber : Prop :=
  ∀ (s : State) (code : Byte) (ch : Channel),
    exec (.classify code ch) s = .next { s with
      responses := s.responses ++
      [⟨true, BitVec.ofNat 32
        (match ch with
         | .commandEvent =>
           if code.toNat = 0 then 0 else if code.toNat ≤ 0x0C then 1 else if code.toNat ≤ 0x0F then 2
           else if code.toNat ≤ 0x80 then 0 else if code.toNat ≤ 0x91 then 3 else 4
         | .data => if code = 0x01#8 then 5 else if code = 0x81#8 then 6 else 0), []⟩] }

/-- R143, R144, R147: FRAME_PARSE of the current buffer reports the first check that fails, with no data-out byte, or
gives the payload. -/
def Obligations.FrameParseChecksInOrder : Prop :=
  ∀ (s : State) (dir : Direction) (ch : Channel),
    (s.dataIn.length < 3 →
      exec (.frameParse dir ch) s = .next { s with responses := s.responses ++ [⟨true, 0x01000000#32, []⟩] }) ∧
    (∀ (code b1 b2 : Byte) (payload : List Byte), s.dataIn = code :: b1 :: b2 :: payload →
      exec (.frameParse dir ch) s = .next { s with
        responses := s.responses ++
        [if Config.maxChciPayload.toNat < b1.toNat + 256 * b2.toNat then ⟨true, 2#8 ++ code ++ b2 ++ b1, []⟩
         else if payload.length ≠ b1.toNat + 256 * b2.toNat then ⟨true, 3#8 ++ code ++ b2 ++ b1, []⟩
         else if ¬ ((ch = .commandEvent ∧ dir = .inbound ∧ 0x01 ≤ code.toNat ∧ code.toNat ≤ 0x0C) ∨
            (ch = .commandEvent ∧ dir = .outbound ∧ 0x81 ≤ code.toNat ∧ code.toNat ≤ 0x91) ∨
            (ch = .data ∧ dir = .inbound ∧ code = 0x01#8) ∨ (ch = .data ∧ dir = .outbound ∧ code = 0x81#8)) then ⟨true, 4#8 ++ code ++ b2 ++ b1, []⟩
         else ⟨true, 0#8 ++ code ++ b2 ++ b1, payload⟩] })

/-- R145, R144, R147: FRAME_BUILD of the current buffer: too long, then bad code, then the message. -/
def Obligations.FrameBuildChecksInOrder : Prop :=
  ∀ (s : State) (code : Byte) (dir : Direction) (ch : Channel),
    exec (.frameBuild code dir ch) s = .next { s with
      responses := s.responses ++
      [if Config.maxChciPayload.toNat < s.dataIn.length then
          ⟨true, 2#8 ++ code ++ BitVec.ofNat 16 (min s.dataIn.length 0xFFFF), []⟩
       else if ¬ ((ch = .commandEvent ∧ dir = .inbound ∧ 0x01 ≤ code.toNat ∧ code.toNat ≤ 0x0C) ∨
            (ch = .commandEvent ∧ dir = .outbound ∧ 0x81 ≤ code.toNat ∧ code.toNat ≤ 0x91) ∨
            (ch = .data ∧ dir = .inbound ∧ code = 0x01#8) ∨ (ch = .data ∧ dir = .outbound ∧ code = 0x81#8)) then
          ⟨true, 4#8 ++ code ++ BitVec.ofNat 16 s.dataIn.length, []⟩
       else
          ⟨true, 0#8 ++ code ++ BitVec.ofNat 16 s.dataIn.length,
            [code, BitVec.ofNat 8 s.dataIn.length, BitVec.ofNat 8 (s.dataIn.length / 256)] ++ s.dataIn⟩] }

/-- R146: HDR_DECODE undoes HDR_ENCODE, and FRAME_PARSE of what FRAME_BUILD wrote gives the payload back. -/
def Obligations.CodecRoundTrips : Prop :=
  (∀ (code : Byte) (len : Half), ∃ b0 b1 b2 v,
    hdrEncode code len = ⟨true, v, [b0, b1, b2]⟩ ∧ hdrDecode b0 b1 b2 = ⟨true, 0#8 ++ code ++ len, []⟩) ∧
  (∀ (s t u : State) (code : Byte) (dir : Direction) (ch : Channel) (r : Response),
    exec (.frameBuild code dir ch) s = .next t → t.responses = s.responses ++ [r] → r.value.extractLsb' 24 8 = 0#8 →
    u.dataIn = r.dataOut →
    exec (.frameParse dir ch) u = .next { u with
      responses := u.responses ++
      [⟨true, 0#8 ++ code ++ BitVec.ofNat 16 s.dataIn.length, s.dataIn⟩] })

/-- R148: a codec operation is accepted in every lifecycle state, writes no register, emits nothing, and its response
depends on no register. -/
def Obligations.CodecIsStateless : Prop :=
  ∀ (i : Instr) (d : List Byte), isCodec i = true →
    ∃ r : Response, r.handled = true ∧ ∀ s : State, s.dataIn = d →
      exec i s = .next { s with responses := s.responses ++ [r] }

/-- R67: PIB_GET, IS_RX_ENABLED and the codec operations change no register; PIB_GET emits at most its confirm, the others
nothing; repeated, each gives the same response and the same event. -/
def Obligations.ReadingOperationsAreIdempotent : Prop :=
  ∀ (i : Instr) (s : State), isCodec i = true ∨ (∃ attr, i = .pibGet attr) ∨ i = .isRxEnabled →
    ∃ (es : List Event) (r : Response),
      exec i s = .next { s with events := s.events ++ es, responses := s.responses ++ [r] } ∧
      exec i { s with events := s.events ++ es, responses := s.responses ++ [r] } =
        .next { s with events := s.events ++ es ++ es, responses := s.responses ++ [r] ++ [r] } ∧
      ((∀ attr, i ≠ .pibGet attr) → es = []) ∧
      (∀ attr, i = .pibGet attr → s.life = .on → ∃ st v, es = [.confGet attr st v])

/-! ## The engine -/

/-- R170 to R173, R288: an indirect DATA_REQ, or a direct one while the engine is busy. Oversized first; then a held
request, turned away when the queue is full or the persistence time is 0; then BUSY, with the request in progress
untouched. -/
def Obligations.DataRequestHeldOrBusy : Prop :=
  ∀ (h l : Byte) (ind ack : Bool) (s : State), s.life = .on → ind = true ∨ s.eng.st ≠ .idle →
    exec (.dataReq h l ind ack) s = .next
      (if Config.maxFrameLen.toNat < l.toNat then
        { s with events := s.events ++ [.confData h .invalidParameter], responses := s.responses ++ [⟨true, 0, []⟩] }
      else if ind then
        if s.queue.length = Config.platform.indirectDepth then
          { s with
            events := s.events ++ [.confData h .transactionOverflow],
            responses := s.responses ++ [⟨true, 0, []⟩] }
        else if s.pib.transactionPersistenceTime = 0 then
          { s with
            events := s.events ++ [.confData h .transactionExpired],
            responses := s.responses ++ [⟨true, 0, []⟩] }
        else
          { s with
            queue := s.queue ++ [⟨h, l, ack, s.pib.transactionPersistenceTime⟩],
            responses := s.responses ++ [⟨true, 0, []⟩] }
      else
        { s with events := s.events ++ [.confData h .busy], responses := s.responses ++ [⟨true, 0, []⟩] })

/-- R170, R171, R177 to R181: a direct DATA_REQ to an idle engine. Oversized; zero total time (TRANSACTION_EXPIRED);
CCA disabled (the frame goes to the radio with `seq` from `dsn`, which wraps up by one); no CCA allowed
(CHANNEL_ACCESS_FAILURE); else one backoff of `r` periods, `r` the oracle's draw below 2^minBE, and the CCA at once when
it is zero. The request, the snapshot and the total timer are latched. The draw is a free value
(notes/assumptions/4.md). -/
def Obligations.DataRequestAccepted : Prop :=
  ∀ (h l : Byte) (ack : Bool) (s : State), s.life = .on → s.eng.st = .idle →
    exec (.dataReq h l false ack) s = .next
      (if Config.maxFrameLen.toNat < l.toNat then
        { s with events := s.events ++ [.confData h .invalidParameter], responses := s.responses ++ [⟨true, 0, []⟩] }
      else if s.pib.maxFrameTotalWaitTime = 0 then
        { s with
          eng := Engine.idle, events := s.events ++ [.confData h .transactionExpired],
          responses := s.responses ++ [⟨true, 0, []⟩] }
      else if s.pib.disableCCA then
        { s with
          pib := { s.pib with dsn := s.pib.dsn + 1 }
          eng := { s.eng with
            st := .txWait, handle := h, len := l, ackReq := ack, sMinBE := s.pib.minBE, sMaxBE := s.pib.maxBE,
            sMaxCB := s.pib.maxCSMABackoffs, sMaxFR := s.pib.maxFrameRetries, sAckWait := s.pib.ackWaitDuration,
            sDisableCCA := true, retries := 0, seq := s.pib.dsn, seqValid := true,
            totalTimer := s.pib.maxFrameTotalWaitTime }
          events := s.events ++ [.radioTx s.pib.dsn h l ack]
          responses := s.responses ++ [⟨true, 0, []⟩] }
      else if s.pib.maxCSMABackoffs = 0 then
        { s with
          eng := Engine.idle, events := s.events ++ [.confData h .channelAccessFailure],
          responses := s.responses ++ [⟨true, 0, []⟩] }
      else
        { s with
          eng := { s.eng with
            st := if Config.backoffDraw s.draws % 2 ^ s.pib.minBE.toNat = 0 then .ccaWait else .backoff
            handle := h, len := l, ackReq := ack, sMinBE := s.pib.minBE, sMaxBE := s.pib.maxBE,
            sMaxCB := s.pib.maxCSMABackoffs, sMaxFR := s.pib.maxFrameRetries, sAckWait := s.pib.ackWaitDuration,
            sDisableCCA := false, BE := s.pib.minBE, NB := 0, retries := 0, seq := 0, seqValid := false,
            backoffTimer := Config.backoffDraw s.draws % 2 ^ s.pib.minBE.toNat * Config.platform.unitBackoffPeriod,
            totalTimer := s.pib.maxFrameTotalWaitTime }
          events := s.events ++ (if Config.backoffDraw s.draws % 2 ^ s.pib.minBE.toNat = 0 then [.radioCca] else [])
          responses := s.responses ++ [⟨true, 0, []⟩]
          draws := s.draws + 1 })

/-- R183, R180: a clear channel hands the frame to the radio. At the request's first transmission the frame takes `dsn`,
which goes up by one and wraps; a retransmission keeps `seq` and leaves `dsn` alone. -/
def Obligations.ClearChannelTransmits : Prop :=
  ∀ s : State, s.life = .on → s.eng.st = .ccaWait →
    exec (.ccaResult false) s = .next
      (if s.eng.seqValid then
        { s with
          eng := { s.eng with st := .txWait }
          events := s.events ++ [.radioTx s.eng.seq s.eng.handle s.eng.len s.eng.ackReq]
          responses := s.responses ++ [⟨true, 0, []⟩] }
      else
        { s with
          pib := { s.pib with dsn := s.pib.dsn + 1 }
          eng := { s.eng with st := .txWait, seq := s.pib.dsn, seqValid := true }
          events := s.events ++ [.radioTx s.pib.dsn s.eng.handle s.eng.len s.eng.ackReq]
          responses := s.responses ++ [⟨true, 0, []⟩] })

/-- R183, R174, R175, R179: a busy channel counts, grows the exponent by one up to `sMaxBE`, and ends the request with
CHANNEL_ACCESS_FAILURE when the count reaches `sMaxCB`, else starts the next backoff, with the CCA at once when it is
zero. The draw is a free value (notes/assumptions/4.md). -/
def Obligations.BusyChannelBacksOffOrFails : Prop :=
  ∀ s : State, s.life = .on → s.eng.st = .ccaWait → s.eng.NB.toNat < 7 →
    exec (.ccaResult true) s = .next
      (if s.eng.sMaxCB.toNat ≤ s.eng.NB.toNat + 1 then
        { s with
          eng := Engine.idle, events := s.events ++ [.confData s.eng.handle .channelAccessFailure],
          responses := s.responses ++ [⟨true, 0, []⟩] }
      else
        { s with
          eng := { s.eng with
            st := if Config.backoffDraw s.draws % 2 ^ min (s.eng.BE.toNat + 1) s.eng.sMaxBE.toNat = 0 then .ccaWait
              else .backoff
            NB := s.eng.NB + 1, BE := BitVec.ofNat 4 (min (s.eng.BE.toNat + 1) s.eng.sMaxBE.toNat),
            backoffTimer := Config.backoffDraw s.draws % 2 ^ min (s.eng.BE.toNat + 1) s.eng.sMaxBE.toNat *
              Config.platform.unitBackoffPeriod }
          events := s.events ++
            (if Config.backoffDraw s.draws % 2 ^ min (s.eng.BE.toNat + 1) s.eng.sMaxBE.toNat = 0 then [.radioCca]
             else [])
          responses := s.responses ++ [⟨true, 0, []⟩]
          draws := s.draws + 1 })

/-- R175, R194: after k busy results of a cycle that began at `sMinBE`, the exponent is min(sMinBE + k, sMaxBE) under
INCREMENT and min(sMinBE * 2^k, sMaxBE) under DOUBLE, whatever the parameters. -/
def Obligations.BackoffExponentAfterBusyResults : Prop :=
  ∀ (c : Params) (s : State) (k : Nat), s.eng.BE = s.eng.sMinBE → s.eng.sMinBE.toNat ≤ s.eng.sMaxBE.toNat →
    ((busyCca c)^[k] s).eng.BE.toNat =
      match c.beGrowth with
      | .increment => min (s.eng.sMinBE.toNat + k) s.eng.sMaxBE.toNat
      | .double => min (s.eng.sMinBE.toNat * 2 ^ k) s.eng.sMaxBE.toNat

/-- R184: TX_DONE without an ACK request is success; with one, it opens the ACK wait. -/
def Obligations.TransmitDoneSucceedsOrWaits : Prop :=
  ∀ s : State, s.life = .on → s.eng.st = .txWait →
    (s.eng.ackReq = false →
      exec .txDone s = .next { s with
        eng := Engine.idle, events := s.events ++ [.confData s.eng.handle .success],
        responses := s.responses ++ [⟨true, 0, []⟩] }) ∧
    (s.eng.ackReq = true → s.eng.sAckWait ≠ 0 →
      exec .txDone s = .next { s with
        eng := { s.eng with ackTimer := s.eng.sAckWait, st := .ackWait },
        responses := s.responses ++ [⟨true, 0, []⟩] })

/-- R182, R184, R188: a zero ACK window makes TX_DONE one failed attempt: with a retry left, the next cycle with the same
`seq`, `dsn` unchanged; without, NO_ACK. The draw is a free value (notes/assumptions/4.md). That TX_DONE emits RADIO_TX or
RADIO_CCA, as R184 says and the 'emitted by' column of R286 does not, is the model's reading (notes/assumptions/23.md). -/
def Obligations.ZeroAckWindowFailsTheAttempt : Prop :=
  ∀ s : State, s.life = .on → s.eng.st = .txWait → s.eng.ackReq = true → s.eng.sAckWait = 0 →
    s.eng.seqValid = true →
    exec .txDone s = .next
      (if s.eng.sMaxFR.toNat ≤ s.eng.retries.toNat then
        { s with
          eng := Engine.idle, events := s.events ++ [.confData s.eng.handle .noAck],
          responses := s.responses ++ [⟨true, 0, []⟩] }
      else if s.eng.sDisableCCA then
        { s with
          eng := { s.eng with retries := s.eng.retries + 1 }
          events := s.events ++ [.radioTx s.eng.seq s.eng.handle s.eng.len s.eng.ackReq]
          responses := s.responses ++ [⟨true, 0, []⟩] }
      else if s.eng.sMaxCB = 0 then
        { s with
          eng := Engine.idle, events := s.events ++ [.confData s.eng.handle .channelAccessFailure],
          responses := s.responses ++ [⟨true, 0, []⟩] }
      else
        { s with
          eng := { s.eng with
            st := if Config.backoffDraw s.draws % 2 ^ s.eng.sMinBE.toNat = 0 then .ccaWait else .backoff
            retries := s.eng.retries + 1, NB := 0, BE := s.eng.sMinBE,
            backoffTimer := Config.backoffDraw s.draws % 2 ^ s.eng.sMinBE.toNat * Config.platform.unitBackoffPeriod }
          events := s.events ++ (if Config.backoffDraw s.draws % 2 ^ s.eng.sMinBE.toNat = 0 then [.radioCca] else [])
          responses := s.responses ++ [⟨true, 0, []⟩]
          draws := s.draws + 1 })

/-- R185: the awaited ACK, with the frame's sequence number, is success. -/
def Obligations.MatchingAckSucceeds : Prop :=
  ∀ s : State, s.life = .on → s.eng.st = .ackWait →
    exec (.ackRx s.eng.seq) s = .next { s with
      eng := Engine.idle,
      events := s.events ++ [.confData s.eng.handle .success], responses := s.responses ++ [⟨true, 0, []⟩] }

/-! ## Ticks -/

/-- R186 to R188, R226, R255, R293: ticks that bring no timer to 0 only count every running timer down, emit nothing and
change nothing else. -/
def Obligations.QuietTicksOnlyCountDown : Prop :=
  ∀ (s : State) (n : Symbols), s.life = .on → (s.eng.st ≠ .idle → n.toNat < s.eng.totalTimer.toNat) →
    (s.eng.st = .backoff → n.toNat < s.eng.backoffTimer) → (s.eng.st = .ackWait → n.toNat < s.eng.ackTimer.toNat) →
    (∀ e ∈ s.queue, n.toNat < e.persist.toNat) → (s.windowActive = true → n.toNat < s.windowTimer.toNat) →
    exec (.tick n) s = .next { s with
      eng := { s.eng with
        totalTimer := if s.eng.st = .idle then s.eng.totalTimer else s.eng.totalTimer - n.setWidth 16
        backoffTimer := if s.eng.st = .backoff then s.eng.backoffTimer - n.toNat else s.eng.backoffTimer
        ackTimer := if s.eng.st = .ackWait then s.eng.ackTimer - n.setWidth 16 else s.eng.ackTimer }
      queue := s.queue.map (fun e => { e with persist := e.persist - n.setWidth 16 })
      windowTimer := if s.windowActive then s.windowTimer - n else s.windowTimer
      responses := s.responses ++ [⟨true, 0, []⟩] }

/-- R186: TICK a then TICK b has the effect and the events of TICK a + b, and TICK 0 changes nothing; only the number of
responses differs. -/
def Obligations.TicksCompose : Prop :=
  (∀ (s t u v : State) (a b : Symbols), s.life = .on → a.toNat + b.toNat < 2 ^ 24 → exec (.tick a) s = .next t →
    exec (.tick b) t = .next u → exec (.tick (a + b)) s = .next v → u = { v with responses := u.responses }) ∧
  (∀ s : State, s.life = .on → exec (.tick 0) s = .next { s with responses := s.responses ++ [⟨true, 0, []⟩] })

/-- R179, R187, R188: the backoff timer loaded with T asks for the CCA at the T-th tick; held entries and an open window
that do not expire with it only count down (R228, R259). -/
def Obligations.BackoffExpiryAsksForTheCca : Prop :=
  ∀ (s : State) (n : Symbols), s.life = .on → s.eng.st = .backoff → 1 ≤ n.toNat → n.toNat = s.eng.backoffTimer →
    n.toNat < s.eng.totalTimer.toNat → (∀ e ∈ s.queue, n.toNat < e.persist.toNat) →
    (s.windowActive = true → n.toNat < s.windowTimer.toNat) →
    exec (.tick n) s = .next { s with
      eng := { s.eng with st := .ccaWait, backoffTimer := 0, totalTimer := s.eng.totalTimer - n.setWidth 16 }
      queue := s.queue.map (fun e => { e with persist := e.persist - n.setWidth 16 })
      windowTimer := if s.windowActive then s.windowTimer - n else s.windowTimer
      events := s.events ++ [.radioCca]
      responses := s.responses ++ [⟨true, 0, []⟩] }

/-- R182, R187, R188: the ACK timer loaded with T makes one failed attempt at the T-th tick: NO_ACK when no retry is left
(R193: with no retry allowed, no further transmission), else the next cycle with the same `seq`; held entries and an open
window that do not expire with it only count down (R228, R259). The draw is a free value (notes/assumptions/4.md). -/
def Obligations.AckExpiryFailsTheAttempt : Prop :=
  ∀ (s : State) (n : Symbols), s.life = .on → s.eng.st = .ackWait → 1 ≤ n.toNat → n.toNat = s.eng.ackTimer.toNat →
    n.toNat < s.eng.totalTimer.toNat → (∀ e ∈ s.queue, n.toNat < e.persist.toNat) →
    (s.windowActive = true → n.toNat < s.windowTimer.toNat) → s.eng.seqValid = true →
    exec (.tick n) s = .next
      (let u : State :=
        { s with
          queue := s.queue.map (fun e => { e with persist := e.persist - n.setWidth 16 })
          windowTimer := if s.windowActive then s.windowTimer - n else s.windowTimer
          responses := s.responses ++ [⟨true, 0, []⟩] }
      if s.eng.sMaxFR.toNat ≤ s.eng.retries.toNat then
        { u with eng := Engine.idle, events := s.events ++ [.confData s.eng.handle .noAck] }
      else if s.eng.sDisableCCA then
        { u with
          eng := { s.eng with
            st := .txWait, retries := s.eng.retries + 1, ackTimer := 0,
            totalTimer := s.eng.totalTimer - n.setWidth 16 }
          events := s.events ++ [.radioTx s.eng.seq s.eng.handle s.eng.len s.eng.ackReq] }
      else if s.eng.sMaxCB = 0 then
        { u with eng := Engine.idle, events := s.events ++ [.confData s.eng.handle .channelAccessFailure] }
      else
        { u with
          eng := { s.eng with
            st := if Config.backoffDraw s.draws % 2 ^ s.eng.sMinBE.toNat = 0 then .ccaWait else .backoff
            retries := s.eng.retries + 1, NB := 0, BE := s.eng.sMinBE, ackTimer := 0,
            totalTimer := s.eng.totalTimer - n.setWidth 16,
            backoffTimer := Config.backoffDraw s.draws % 2 ^ s.eng.sMinBE.toNat * Config.platform.unitBackoffPeriod }
          events := s.events ++ (if Config.backoffDraw s.draws % 2 ^ s.eng.sMinBE.toNat = 0 then [.radioCca] else [])
          draws := s.draws + 1 })

/-- R187, R289: in the tick in which everything expires, the total timer ends the request first whatever its state's timer
holds, then the held entries expire oldest first, then the window closes and the receiver falls back. That RADIO_RX follows
the confirms, and that several entries are confirmed, where R287 says otherwise, is the model's reading
(notes/assumptions/24.md). -/
def Obligations.ExpiriesOfOneTickInOrder : Prop :=
  ∀ s : State, s.life = .on → s.eng.st ≠ .idle → s.eng.totalTimer = 1 → (∀ e ∈ s.queue, e.persist = 1) →
    s.windowActive = true → s.windowTimer = 1 →
    exec (.tick 1) s = .next { s with
      eng := Engine.idle, queue := [], windowActive := false, windowTimer := 0, radioRx := s.pib.rxOnWhenIdle,
      events := s.events ++ [.confData s.eng.handle .transactionExpired] ++
        s.queue.map (fun e => .confData e.handle .transactionExpired) ++ [.radioRx s.pib.rxOnWhenIdle],
      responses := s.responses ++ [⟨true, 0, []⟩] }

/-- R195, R191: a request in the engine ends, with its confirm, no later than its total timer's last tick, whatever state
it is in and with no answer from the radio. -/
def Obligations.RequestEndsWithinItsTotalTime : Prop :=
  ∀ (s t : State) (n : Symbols), s.life = .on → s.eng.st ≠ .idle → 1 ≤ s.eng.totalTimer.toNat →
    s.eng.totalTimer.toNat ≤ n.toNat → exec (.tick n) s = .next t →
    t.eng = Engine.idle ∧ ∃ es, t.events = s.events ++ es ∧ 1 ≤ confirmsOf s.eng.handle es

/-- R226, R228: held entries count down together and independently of the engine and the window: after n ticks exactly
those whose persistence time is more than n are held, in their order, with n less. Each of the others gets its
CONF_DATA(handle, TRANSACTION_EXPIRED), tick by tick and oldest first within a tick: these confirms stand in the output in
that order, the data confirms of a handle are as many as its expired entries and, if it ended, its request in the engine,
and with no request in the engine they are all that is emitted but RADIO_RX. That one TICK gives several, which R287 does not
list, is the model's reading (notes/assumptions/24.md). -/
def Obligations.HeldEntriesCountDown : Prop :=
  ∀ (s t : State) (n : Symbols), s.life = .on → (∀ e ∈ s.queue, 1 ≤ e.persist.toNat) → exec (.tick n) s = .next t →
    t.queue = (s.queue.filter (fun e => decide (n.toNat < e.persist.toNat))).map
      (fun e => { e with persist := BitVec.ofNat 16 (e.persist.toNat - n.toNat) }) ∧
    ∃ es, t.events = s.events ++ es ∧ (expiryConfirms s.queue n.toNat).Sublist es ∧
      (∀ h, confirmsOf h es + (if t.eng.st ≠ .idle ∧ t.eng.handle = h then 1 else 0) =
        s.queue.countP (fun e => decide (e.handle = h ∧ e.persist.toNat ≤ n.toNat)) +
          (if s.eng.st ≠ .idle ∧ s.eng.handle = h then 1 else 0)) ∧
      (s.eng.st = .idle → es.filter (fun e => !e.isRadioRx) = expiryConfirms s.queue n.toNat)

/-- R255, R37: an open window counts down and closes at its last tick, where the receiver falls back to `rxOnWhenIdle`,
whatever the engine and the queue do. -/
def Obligations.WindowCountsDownAndCloses : Prop :=
  ∀ (s t : State) (n : Symbols), s.life = .on → (s.windowActive = true ↔ s.windowTimer ≠ 0) →
    exec (.tick n) s = .next t →
    t.windowActive = (s.windowActive && decide (n.toNat < s.windowTimer.toNat)) ∧
    t.windowTimer = BitVec.ofNat 24 (s.windowTimer.toNat - n.toNat) ∧
    t.radioRx = (if s.windowActive ∧ s.windowTimer.toNat ≤ n.toNat then s.pib.rxOnWhenIdle else s.radioRx)

/-! ## The indirect queue -/

/-- R222, R220: IND_RELEASE answers 1 when no entry has the handle and 2 when the engine is busy, changing nothing; else
it removes the oldest entry of the handle, which is then served exactly as a direct request accepted at the release is,
and answers 0. -/
def Obligations.ReleaseOfAHeldRequest : Prop :=
  ∀ (s : State) (h : Byte), s.life = .on →
    (findHandle s.queue h = none →
      exec (.indRelease h) s = .next { s with responses := s.responses ++ [⟨true, 1, []⟩] }) ∧
    (∀ i, findHandle s.queue h = some i → s.eng.st ≠ .idle →
      exec (.indRelease h) s = .next { s with responses := s.responses ++ [⟨true, 2, []⟩] }) ∧
    (∀ i e, findHandle s.queue h = some i → s.queue[i]? = some e → s.eng.st = .idle →
      e.handle = h ∧
      (e.len.toNat ≤ Config.maxFrameLen.toNat →
        exec (.indRelease h) s =
          exec (.dataReq h e.len false e.ackReq) { s with queue := s.queue.eraseIdx i }) ∧
      ∃ t, exec (.indRelease h) s = .next t ∧ t.queue = s.queue.eraseIdx i ∧
        t.responses = s.responses ++ [⟨true, 0, []⟩])

/-- R222, R180: with CCA disabled and a non-zero total time, a release hands the frame to the radio in the same
operation. -/
def Obligations.ReleaseTransmitsWithCcaDisabled : Prop :=
  ∀ (s : State) (h : Byte) (i : Nat) (e : Entry), s.life = .on → s.eng = Engine.idle →
    findHandle s.queue h = some i → s.queue[i]? = some e → s.pib.disableCCA = true →
    s.pib.maxFrameTotalWaitTime ≠ 0 →
    exec (.indRelease h) s = .next { s with
      pib := { s.pib with dsn := s.pib.dsn + 1 }
      eng := { Engine.idle with
        st := .txWait, handle := h, len := e.len, ackReq := e.ackReq, sMinBE := s.pib.minBE, sMaxBE := s.pib.maxBE,
        sMaxCB := s.pib.maxCSMABackoffs, sMaxFR := s.pib.maxFrameRetries, sAckWait := s.pib.ackWaitDuration,
        sDisableCCA := true, seq := s.pib.dsn, seqValid := true, totalTimer := s.pib.maxFrameTotalWaitTime }
      queue := s.queue.eraseIdx i
      events := s.events ++ [.radioTx s.pib.dsn h e.len e.ackReq]
      responses := s.responses ++ [⟨true, 0, []⟩] }

/-- R224, R225: PURGE removes the oldest entry of the handle and confirms it; it never reaches the engine and the purged
request gets no CONF_DATA. -/
def Obligations.PurgeRemovesTheOldestEntry : Prop :=
  ∀ (s : State) (h : Byte) (i : Nat), s.life = .on → findHandle s.queue h = some i →
    exec (.purge h) s = .next { s with
      queue := s.queue.eraseIdx i, events := s.events ++ [.confPurge h .success],
      responses := s.responses ++ [⟨true, 0, []⟩] }

/-- R227: PURGE of a handle that is not held reports INVALID_HANDLE and leaves the queue and every other register
unchanged. -/
def Obligations.PurgeOfAnUnknownHandle : Prop :=
  ∀ (s : State) (h : Byte), s.life = .on → findHandle s.queue h = none →
    exec (.purge h) s = .next { s with
      events := s.events ++ [.confPurge h .invalidHandle], responses := s.responses ++ [⟨true, 0, []⟩] }

/-! ## The RX-enable scheduler -/

/-- R252: stop before start, a start of length 0 closes, RADIO_RX before the confirm and only when `windowActive`
changed; nothing else of the block changes. -/
def Obligations.RxEnableMovesTheWindow : Prop :=
  ∀ (s : State) (stop start : Bool) (dur : Symbols), s.life = .on →
    exec (.rxEnable stop start dur) s = .next
      (let active := if start then decide (dur ≠ 0) else if stop then false else s.windowActive
       { s with
        windowActive := active
        windowTimer := if start then dur else if stop then 0 else s.windowTimer
        radioRx := if active = s.windowActive then s.radioRx else s.pib.rxOnWhenIdle || active
        events := s.events ++ (if active = s.windowActive then [] else [.radioRx (s.pib.rxOnWhenIdle || active)]) ++
          [.confRxEnable .success]
        responses := s.responses ++ [⟨true, 0, []⟩] })

/-- R253, R257: IS_RX_ENABLED responds 1 exactly when `rxOnWhenIdle` or an open window asks for the receiver; with the
other input 0, changing one input changes the response; while a window is open the answer is 1 whatever the policy. -/
def Obligations.ReceiverIsOnWhenEitherInputIs : Prop :=
  (∀ s : State, s.life = .on →
    exec .isRxEnabled s = .next { s with
      responses := s.responses ++
      [⟨true, if s.pib.rxOnWhenIdle = true ∨ s.windowActive = true then 1 else 0, []⟩] }) ∧
  (∀ (s : State) (p w : Bool), rxOn { s with pib := { s.pib with rxOnWhenIdle := p }, windowActive := false } = p ∧
    rxOn { s with pib := { s.pib with rxOnWhenIdle := false }, windowActive := w } = w ∧
    rxOn { s with pib := { s.pib with rxOnWhenIdle := p }, windowActive := true } = true)

/-- R254, R251: START_RX drives the decision even when nothing changed, and changes no register but `radioRx`. -/
def Obligations.StartRxDrivesTheDecision : Prop :=
  ∀ s : State, s.life = .on →
    exec .startRx s = .next { s with
      radioRx := s.pib.rxOnWhenIdle || s.windowActive
      events := s.events ++ [.radioRx (s.pib.rxOnWhenIdle || s.windowActive)]
      responses := s.responses ++ [⟨true, 0, []⟩] }

/-- R258: while the block is ON, at the end of every operation `radioRx` is the combined decision and the last RADIO_RX
event carries it: an INIT that turns the block ON establishes it, and any number of operations keep it, from every state
that has it (a block that is not ON has it, so it holds in every run from power-on). An operation that changes either
input is RESET, PIB_SET, RX_ENABLE or TICK, and applies the decision. -/
def Obligations.ReceiverFollowsTheDecision : Prop :=
  (∀ (ih : Bool) (s : State), s.life = .off →
    ∃ t, exec (.init ih) s = .next t ∧
      (t.life = .on → t.radioRx = rxOn t ∧ lastRadioRx t.events = some (rxOn t))) ∧
  (∀ (k : Nat) (s t : State), (s.life = .on → s.radioRx = rxOn s ∧ lastRadioRx s.events = some (rxOn s)) →
    Host.Core.run Sys2Proof.core k s = .next t →
    t.life = .on → t.radioRx = rxOn t ∧ lastRadioRx t.events = some (rxOn t)) ∧
  (∀ (i : Instr) (s t : State), s.life = .on → t.life = .on → exec i s = .next t →
    t.pib.rxOnWhenIdle ≠ s.pib.rxOnWhenIdle ∨ t.windowActive ≠ s.windowActive →
    (i = .reset ∨ (∃ v, i = .pibSet 0x52 v) ∨ (∃ stop start dur, i = .rxEnable stop start dur) ∨ ∃ n, i = .tick n) ∧
    ∃ es, t.events = s.events ++ es ∧ lastRadioRx es = some (rxOn t))

/-- R259: the engine's and the queue's operations leave the window and the receiver alone, and the scheduler's operations
leave the engine, the queue and the PIB alone. What an operation does to the engine and the queue, and what it emits but
RADIO_RX, does not depend on the window, the receiver or `rxOnWhenIdle`; what it does to the window and the receiver, and
the RADIO_RX it emits, does not depend on the engine, the queue or the oracle. TICK, which serves both units, is among the
operations of both halves. -/
def Obligations.SchedulerAndEngineAreIndependent : Prop :=
  (∀ (i : Instr) (s t : State), exec i s = .next t →
    ((∃ h l ind ack, i = .dataReq h l ind ack) ∨ (∃ b, i = .ccaResult b) ∨ i = .txDone ∨ (∃ q, i = .ackRx q) ∨
      (∃ h, i = .indRelease h) ∨ (∃ h, i = .purge h) →
      t.windowActive = s.windowActive ∧ t.windowTimer = s.windowTimer ∧ t.radioRx = s.radioRx ∧
      t.pib.rxOnWhenIdle = s.pib.rxOnWhenIdle ∧ ∃ es, t.events = s.events ++ es ∧ lastRadioRx es = none) ∧
    ((∃ stop start dur, i = .rxEnable stop start dur) ∨ i = .isRxEnabled ∨ i = .startRx →
      t.eng = s.eng ∧ t.queue = s.queue ∧ t.pib = s.pib ∧ t.draws = s.draws)) ∧
  (∀ (i : Instr) (s t : State) (active rx policy : Bool) (timer : BitVec 24), exec i s = .next t →
    (∃ n, i = .tick n) ∨ (∃ h l ind ack, i = .dataReq h l ind ack) ∨ (∃ b, i = .ccaResult b) ∨ i = .txDone ∨
      (∃ q, i = .ackRx q) ∨ (∃ h, i = .indRelease h) ∨ (∃ h, i = .purge h) →
    ∃ u es fs,
      exec i { s with
        windowActive := active, windowTimer := timer, radioRx := rx,
        pib := { s.pib with rxOnWhenIdle := policy } } = .next u ∧
      u.eng = t.eng ∧ u.queue = t.queue ∧ u.draws = t.draws ∧ u.responses = t.responses ∧
      u.pib = { t.pib with rxOnWhenIdle := policy } ∧ t.events = s.events ++ es ∧ u.events = s.events ++ fs ∧
      fs.filter (fun e => !e.isRadioRx) = es.filter (fun e => !e.isRadioRx)) ∧
  (∀ (i : Instr) (s t : State) (eng : Engine) (queue : List Entry) (draws : Nat), exec i s = .next t →
    (∃ n, i = .tick n) ∨ (∃ stop start dur, i = .rxEnable stop start dur) ∨ i = .isRxEnabled ∨ i = .startRx →
    ∃ u es fs,
      exec i { s with eng := eng, queue := queue, draws := draws } = .next u ∧
      u.windowActive = t.windowActive ∧ u.windowTimer = t.windowTimer ∧ u.radioRx = t.radioRx ∧
      u.responses = t.responses ∧ u.pib.rxOnWhenIdle = t.pib.rxOnWhenIdle ∧ t.events = s.events ++ es ∧
      u.events = s.events ++ fs ∧ fs.filter Event.isRadioRx = es.filter Event.isRadioRx)

/-! ## The whole machine -/

/-- The invariant of the block (R24 to R39, R213, R221, R258) holds right after power-on. It rests on the model's reset
values only through `life` and `radioRx`, which R22 and R38 give. -/
def Obligations.InvariantAtReset : Prop := Inv Config.platform State.reset

/-- R24 to R39, R213, R221, R258: every step keeps the invariant of the block, from every state that has it. -/
def Obligations.EveryStepKeepsTheInvariant : Prop :=
  ∀ s t : State, Inv Config.platform s → step s = .next t → Inv Config.platform t

/-- R191: the accounting of confirms, for every handle. Outside INIT, RESET, DEINIT and PURGE, the requests owed a
confirm before an operation, and the one a handled DATA_REQ adds, are after it either confirmed by one CONF_DATA or still
owed. A successful PURGE takes one without a CONF_DATA; RESET and DEINIT take all without one. -/
def Obligations.EveryRequestIsConfirmedOnce : Prop :=
  ∀ (i : Instr) (s t : State) (h : Byte), s.life = .on → exec i s = .next t →
    ∃ es, t.events = s.events ++ es ∧
      (i = .reset ∨ i = .deinit → confirmsOf h es = 0 ∧ liveRequests t h = 0) ∧
      (∀ k, i = .purge k → confirmsOf h es = 0 ∧
        liveRequests t h + (if k = h ∧ (findHandle s.queue k).isSome then 1 else 0) = liveRequests s h) ∧
      (i ≠ .reset → i ≠ .deinit → (∀ k, i ≠ .purge k) →
        confirmsOf h es + liveRequests t h =
          liveRequests s h + submits i h)

/-- R192, R26: outside INIT, RESET and DEINIT, `dsn` either stays or goes up by one and wraps, and it goes up exactly when
the operation emits the first transmission of a request, which carries the old `dsn`. -/
def Obligations.SequenceNumberAdvancesOncePerRequest : Prop :=
  ∀ (i : Instr) (s t : State), exec i s = .next t → (∀ ih, i ≠ .init ih) → i ≠ .deinit → i ≠ .reset →
    (t.pib.dsn = s.pib.dsn ∧ t.eng.seqValid = (s.eng.seqValid && t.eng.seqValid)) ∨
    (t.pib.dsn = s.pib.dsn + 1 ∧ (s.eng.st = .idle ∨ s.eng.seqValid = false) ∧
      ∃ handle len ackReq, Event.radioTx s.pib.dsn handle len ackReq ∈ t.events.drop s.events.length)

/-- R194: a request transmits at most once, and asks for at most `ccaLimit()` CCAs, in each of at most `sMaxFR + 1` cycles.
The operation that accepts it (DATA_REQ to an idle engine, or IND_RELEASE) emits, and leaves to be emitted, at most
`maxFrameRetries + 1` RADIO_TX and `(maxFrameRetries + 1) * maxCSMABackoffs` RADIO_CCA (DOC_LITERAL, R174); what any later
operation of the engine emits and what is left after it never exceed what was left before it; and every transmission of a
numbered request carries its `seq`. The bounds on `retries` and `NB` are those of R31. -/
def Obligations.TransmissionsAreBounded : Prop :=
  (∀ (i : Instr) (s t : State), s.eng.st = .idle → exec i s = .next t →
    (∃ h l ind ack, i = .dataReq h l ind ack) ∨ (∃ h, i = .indRelease h) →
    ∃ es, t.events = s.events ++ es ∧
      transmissions es + transmissionsLeft t.eng ≤ s.pib.maxFrameRetries.toNat + 1 ∧
      ccaRequests es + ccaRequestsLeft Config.platform t.eng ≤
        (s.pib.maxFrameRetries.toNat + 1) * s.pib.maxCSMABackoffs.toNat) ∧
  (∀ (i : Instr) (s t : State), s.eng.retries.toNat ≤ s.eng.sMaxFR.toNat →
    (s.eng.st = .backoff ∨ s.eng.st = .ccaWait → s.eng.NB.toNat < s.eng.sMaxCB.toNat) → exec i s = .next t →
    (∃ b, i = .ccaResult b) ∨ i = .txDone ∨ (∃ q, i = .ackRx q) ∨ (∃ n, i = .tick n) ∨
      (s.eng.st ≠ .idle ∧ ((∃ h l ind ack, i = .dataReq h l ind ack) ∨ ∃ h, i = .indRelease h)) →
    ∃ es, t.events = s.events ++ es ∧ transmissions es + transmissionsLeft t.eng ≤ transmissionsLeft s.eng ∧
      ccaRequests es + ccaRequestsLeft Config.platform t.eng ≤ ccaRequestsLeft Config.platform s.eng ∧
      (s.eng.seqValid = true →
        (∀ seq handle len ackReq, Event.radioTx seq handle len ackReq ∈ es → seq = s.eng.seq) ∧
        (t.eng.st ≠ .idle → t.eng.seqValid = true ∧ t.eng.seq = s.eng.seq)))

/-- R27, R321: the engine does not read the PIB while a request is in progress: with other values in every PIB register
but `dsn`, CCA_RESULT, TX_DONE and ACK_RX do the same, and so do a direct DATA_REQ and an IND_RELEASE that find the engine
busy; with other values in every one but `dsn` and `rxOnWhenIdle`, which the window reads live, so does TICK. -/
def Obligations.EngineReadsItsSnapshot : Prop :=
  ∀ (i : Instr) (s t : State) (p : Pib),
    (∃ b, i = .ccaResult b) ∨ i = .txDone ∨ (∃ q, i = .ackRx q) ∨
      (s.eng.st ≠ .idle ∧ ((∃ h l ack, i = .dataReq h l false ack) ∨ ∃ h, i = .indRelease h)) ∨
      ((∃ n, i = .tick n) ∧ p.rxOnWhenIdle = s.pib.rxOnWhenIdle) →
    exec i s = .next t → p.dsn = s.pib.dsn →
    exec i { s with pib := p } = .next { t with pib := { p with dsn := t.pib.dsn } }

/-- R43, I11: no run can observe the power-on values the model chose (notes/assumptions/3.md): two states that differ at
most in what R43 calls unspecified stay so, operation by operation, and give the same responses and events. -/
def Obligations.PowerOnValuesAreUnobservable : Prop :=
  ∀ (k : Nat) (a b a' : State), Indistinguishable a b → Host.Core.run Sys2Proof.core k a = .next a' →
    ∃ b', Host.Core.run Sys2Proof.core k b = .next b' ∧ Indistinguishable a' b'
end

