-- ==== Sys2Proof/Laws/State.lean ====
section
/-! SUPPORT. One lemma per field per named update of State: what the update leaves in the field. -/

namespace Sys2Proof.Machine

@[simp] theorem State.setLife_life (s : State) (v : Life) : (s.setLife v).life = v := rfl
@[simp] theorem State.setLife_pib (s : State) (v : Life) : (s.setLife v).pib = s.pib := rfl
@[simp] theorem State.setLife_eng (s : State) (v : Life) : (s.setLife v).eng = s.eng := rfl
@[simp] theorem State.setLife_queue (s : State) (v : Life) : (s.setLife v).queue = s.queue := rfl
@[simp] theorem State.setLife_windowActive (s : State) (v : Life) : (s.setLife v).windowActive = s.windowActive := rfl
@[simp] theorem State.setLife_windowTimer (s : State) (v : Life) : (s.setLife v).windowTimer = s.windowTimer := rfl
@[simp] theorem State.setLife_radioRx (s : State) (v : Life) : (s.setLife v).radioRx = s.radioRx := rfl
@[simp] theorem State.setLife_port (s : State) (v : Life) : (s.setLife v).port = s.port := rfl
@[simp] theorem State.setLife_dataIn (s : State) (v : Life) : (s.setLife v).dataIn = s.dataIn := rfl
@[simp] theorem State.setLife_events (s : State) (v : Life) : (s.setLife v).events = s.events := rfl
@[simp] theorem State.setLife_responses (s : State) (v : Life) : (s.setLife v).responses = s.responses := rfl
@[simp] theorem State.setLife_draws (s : State) (v : Life) : (s.setLife v).draws = s.draws := rfl

@[simp] theorem State.setPib_life (s : State) (v : Pib) : (s.setPib v).life = s.life := rfl
@[simp] theorem State.setPib_pib (s : State) (v : Pib) : (s.setPib v).pib = v := rfl
@[simp] theorem State.setPib_eng (s : State) (v : Pib) : (s.setPib v).eng = s.eng := rfl
@[simp] theorem State.setPib_queue (s : State) (v : Pib) : (s.setPib v).queue = s.queue := rfl
@[simp] theorem State.setPib_windowActive (s : State) (v : Pib) : (s.setPib v).windowActive = s.windowActive := rfl
@[simp] theorem State.setPib_windowTimer (s : State) (v : Pib) : (s.setPib v).windowTimer = s.windowTimer := rfl
@[simp] theorem State.setPib_radioRx (s : State) (v : Pib) : (s.setPib v).radioRx = s.radioRx := rfl
@[simp] theorem State.setPib_port (s : State) (v : Pib) : (s.setPib v).port = s.port := rfl
@[simp] theorem State.setPib_dataIn (s : State) (v : Pib) : (s.setPib v).dataIn = s.dataIn := rfl
@[simp] theorem State.setPib_events (s : State) (v : Pib) : (s.setPib v).events = s.events := rfl
@[simp] theorem State.setPib_responses (s : State) (v : Pib) : (s.setPib v).responses = s.responses := rfl
@[simp] theorem State.setPib_draws (s : State) (v : Pib) : (s.setPib v).draws = s.draws := rfl

@[simp] theorem State.setEng_life (s : State) (v : Engine) : (s.setEng v).life = s.life := rfl
@[simp] theorem State.setEng_pib (s : State) (v : Engine) : (s.setEng v).pib = s.pib := rfl
@[simp] theorem State.setEng_eng (s : State) (v : Engine) : (s.setEng v).eng = v := rfl
@[simp] theorem State.setEng_queue (s : State) (v : Engine) : (s.setEng v).queue = s.queue := rfl
@[simp] theorem State.setEng_windowActive (s : State) (v : Engine) : (s.setEng v).windowActive = s.windowActive := rfl
@[simp] theorem State.setEng_windowTimer (s : State) (v : Engine) : (s.setEng v).windowTimer = s.windowTimer := rfl
@[simp] theorem State.setEng_radioRx (s : State) (v : Engine) : (s.setEng v).radioRx = s.radioRx := rfl
@[simp] theorem State.setEng_port (s : State) (v : Engine) : (s.setEng v).port = s.port := rfl
@[simp] theorem State.setEng_dataIn (s : State) (v : Engine) : (s.setEng v).dataIn = s.dataIn := rfl
@[simp] theorem State.setEng_events (s : State) (v : Engine) : (s.setEng v).events = s.events := rfl
@[simp] theorem State.setEng_responses (s : State) (v : Engine) : (s.setEng v).responses = s.responses := rfl
@[simp] theorem State.setEng_draws (s : State) (v : Engine) : (s.setEng v).draws = s.draws := rfl

@[simp] theorem State.setQueue_life (s : State) (v : List Entry) : (s.setQueue v).life = s.life := rfl
@[simp] theorem State.setQueue_pib (s : State) (v : List Entry) : (s.setQueue v).pib = s.pib := rfl
@[simp] theorem State.setQueue_eng (s : State) (v : List Entry) : (s.setQueue v).eng = s.eng := rfl
@[simp] theorem State.setQueue_queue (s : State) (v : List Entry) : (s.setQueue v).queue = v := rfl
@[simp] theorem State.setQueue_windowActive (s : State) (v : List Entry) : (s.setQueue v).windowActive = s.windowActive := rfl
@[simp] theorem State.setQueue_windowTimer (s : State) (v : List Entry) : (s.setQueue v).windowTimer = s.windowTimer := rfl
@[simp] theorem State.setQueue_radioRx (s : State) (v : List Entry) : (s.setQueue v).radioRx = s.radioRx := rfl
@[simp] theorem State.setQueue_port (s : State) (v : List Entry) : (s.setQueue v).port = s.port := rfl
@[simp] theorem State.setQueue_dataIn (s : State) (v : List Entry) : (s.setQueue v).dataIn = s.dataIn := rfl
@[simp] theorem State.setQueue_events (s : State) (v : List Entry) : (s.setQueue v).events = s.events := rfl
@[simp] theorem State.setQueue_responses (s : State) (v : List Entry) : (s.setQueue v).responses = s.responses := rfl
@[simp] theorem State.setQueue_draws (s : State) (v : List Entry) : (s.setQueue v).draws = s.draws := rfl

@[simp] theorem State.setWindow_life (s : State) (v : Bool) (w : BitVec 24) : (s.setWindow v w).life = s.life := rfl
@[simp] theorem State.setWindow_pib (s : State) (v : Bool) (w : BitVec 24) : (s.setWindow v w).pib = s.pib := rfl
@[simp] theorem State.setWindow_eng (s : State) (v : Bool) (w : BitVec 24) : (s.setWindow v w).eng = s.eng := rfl
@[simp] theorem State.setWindow_queue (s : State) (v : Bool) (w : BitVec 24) : (s.setWindow v w).queue = s.queue := rfl
@[simp] theorem State.setWindow_windowActive (s : State) (v : Bool) (w : BitVec 24) : (s.setWindow v w).windowActive = v := rfl
@[simp] theorem State.setWindow_windowTimer (s : State) (v : Bool) (w : BitVec 24) : (s.setWindow v w).windowTimer = w := rfl
@[simp] theorem State.setWindow_radioRx (s : State) (v : Bool) (w : BitVec 24) : (s.setWindow v w).radioRx = s.radioRx := rfl
@[simp] theorem State.setWindow_port (s : State) (v : Bool) (w : BitVec 24) : (s.setWindow v w).port = s.port := rfl
@[simp] theorem State.setWindow_dataIn (s : State) (v : Bool) (w : BitVec 24) : (s.setWindow v w).dataIn = s.dataIn := rfl
@[simp] theorem State.setWindow_events (s : State) (v : Bool) (w : BitVec 24) : (s.setWindow v w).events = s.events := rfl
@[simp] theorem State.setWindow_responses (s : State) (v : Bool) (w : BitVec 24) : (s.setWindow v w).responses = s.responses := rfl
@[simp] theorem State.setWindow_draws (s : State) (v : Bool) (w : BitVec 24) : (s.setWindow v w).draws = s.draws := rfl

@[simp] theorem State.setRadioRx_life (s : State) (v : Bool) : (s.setRadioRx v).life = s.life := rfl
@[simp] theorem State.setRadioRx_pib (s : State) (v : Bool) : (s.setRadioRx v).pib = s.pib := rfl
@[simp] theorem State.setRadioRx_eng (s : State) (v : Bool) : (s.setRadioRx v).eng = s.eng := rfl
@[simp] theorem State.setRadioRx_queue (s : State) (v : Bool) : (s.setRadioRx v).queue = s.queue := rfl
@[simp] theorem State.setRadioRx_windowActive (s : State) (v : Bool) : (s.setRadioRx v).windowActive = s.windowActive := rfl
@[simp] theorem State.setRadioRx_windowTimer (s : State) (v : Bool) : (s.setRadioRx v).windowTimer = s.windowTimer := rfl
@[simp] theorem State.setRadioRx_radioRx (s : State) (v : Bool) : (s.setRadioRx v).radioRx = v := rfl
@[simp] theorem State.setRadioRx_port (s : State) (v : Bool) : (s.setRadioRx v).port = s.port := rfl
@[simp] theorem State.setRadioRx_dataIn (s : State) (v : Bool) : (s.setRadioRx v).dataIn = s.dataIn := rfl
@[simp] theorem State.setRadioRx_events (s : State) (v : Bool) : (s.setRadioRx v).events = s.events := rfl
@[simp] theorem State.setRadioRx_responses (s : State) (v : Bool) : (s.setRadioRx v).responses = s.responses := rfl
@[simp] theorem State.setRadioRx_draws (s : State) (v : Bool) : (s.setRadioRx v).draws = s.draws := rfl

@[simp] theorem State.setDraws_life (s : State) (v : Nat) : (s.setDraws v).life = s.life := rfl
@[simp] theorem State.setDraws_pib (s : State) (v : Nat) : (s.setDraws v).pib = s.pib := rfl
@[simp] theorem State.setDraws_eng (s : State) (v : Nat) : (s.setDraws v).eng = s.eng := rfl
@[simp] theorem State.setDraws_queue (s : State) (v : Nat) : (s.setDraws v).queue = s.queue := rfl
@[simp] theorem State.setDraws_windowActive (s : State) (v : Nat) : (s.setDraws v).windowActive = s.windowActive := rfl
@[simp] theorem State.setDraws_windowTimer (s : State) (v : Nat) : (s.setDraws v).windowTimer = s.windowTimer := rfl
@[simp] theorem State.setDraws_radioRx (s : State) (v : Nat) : (s.setDraws v).radioRx = s.radioRx := rfl
@[simp] theorem State.setDraws_port (s : State) (v : Nat) : (s.setDraws v).port = s.port := rfl
@[simp] theorem State.setDraws_dataIn (s : State) (v : Nat) : (s.setDraws v).dataIn = s.dataIn := rfl
@[simp] theorem State.setDraws_events (s : State) (v : Nat) : (s.setDraws v).events = s.events := rfl
@[simp] theorem State.setDraws_responses (s : State) (v : Nat) : (s.setDraws v).responses = s.responses := rfl
@[simp] theorem State.setDraws_draws (s : State) (v : Nat) : (s.setDraws v).draws = v := rfl

@[simp] theorem State.emitAll_life (s : State) (v : List Event) : (s.emitAll v).life = s.life := rfl
@[simp] theorem State.emitAll_pib (s : State) (v : List Event) : (s.emitAll v).pib = s.pib := rfl
@[simp] theorem State.emitAll_eng (s : State) (v : List Event) : (s.emitAll v).eng = s.eng := rfl
@[simp] theorem State.emitAll_queue (s : State) (v : List Event) : (s.emitAll v).queue = s.queue := rfl
@[simp] theorem State.emitAll_windowActive (s : State) (v : List Event) : (s.emitAll v).windowActive = s.windowActive := rfl
@[simp] theorem State.emitAll_windowTimer (s : State) (v : List Event) : (s.emitAll v).windowTimer = s.windowTimer := rfl
@[simp] theorem State.emitAll_radioRx (s : State) (v : List Event) : (s.emitAll v).radioRx = s.radioRx := rfl
@[simp] theorem State.emitAll_port (s : State) (v : List Event) : (s.emitAll v).port = s.port := rfl
@[simp] theorem State.emitAll_dataIn (s : State) (v : List Event) : (s.emitAll v).dataIn = s.dataIn := rfl
@[simp] theorem State.emitAll_events (s : State) (v : List Event) : (s.emitAll v).events = s.events ++ v := rfl
@[simp] theorem State.emitAll_responses (s : State) (v : List Event) : (s.emitAll v).responses = s.responses := rfl
@[simp] theorem State.emitAll_draws (s : State) (v : List Event) : (s.emitAll v).draws = s.draws := rfl

@[simp] theorem State.emit_life (s : State) (v : Event) : (s.emit v).life = s.life := rfl
@[simp] theorem State.emit_pib (s : State) (v : Event) : (s.emit v).pib = s.pib := rfl
@[simp] theorem State.emit_eng (s : State) (v : Event) : (s.emit v).eng = s.eng := rfl
@[simp] theorem State.emit_queue (s : State) (v : Event) : (s.emit v).queue = s.queue := rfl
@[simp] theorem State.emit_windowActive (s : State) (v : Event) : (s.emit v).windowActive = s.windowActive := rfl
@[simp] theorem State.emit_windowTimer (s : State) (v : Event) : (s.emit v).windowTimer = s.windowTimer := rfl
@[simp] theorem State.emit_radioRx (s : State) (v : Event) : (s.emit v).radioRx = s.radioRx := rfl
@[simp] theorem State.emit_port (s : State) (v : Event) : (s.emit v).port = s.port := rfl
@[simp] theorem State.emit_dataIn (s : State) (v : Event) : (s.emit v).dataIn = s.dataIn := rfl
@[simp] theorem State.emit_events (s : State) (v : Event) : (s.emit v).events = s.events ++ [v] := rfl
@[simp] theorem State.emit_responses (s : State) (v : Event) : (s.emit v).responses = s.responses := rfl
@[simp] theorem State.emit_draws (s : State) (v : Event) : (s.emit v).draws = s.draws := rfl

@[simp] theorem State.answer_life (s : State) (v : Response) : (s.answer v).life = s.life := rfl
@[simp] theorem State.answer_pib (s : State) (v : Response) : (s.answer v).pib = s.pib := rfl
@[simp] theorem State.answer_eng (s : State) (v : Response) : (s.answer v).eng = s.eng := rfl
@[simp] theorem State.answer_queue (s : State) (v : Response) : (s.answer v).queue = s.queue := rfl
@[simp] theorem State.answer_windowActive (s : State) (v : Response) : (s.answer v).windowActive = s.windowActive := rfl
@[simp] theorem State.answer_windowTimer (s : State) (v : Response) : (s.answer v).windowTimer = s.windowTimer := rfl
@[simp] theorem State.answer_radioRx (s : State) (v : Response) : (s.answer v).radioRx = s.radioRx := rfl
@[simp] theorem State.answer_port (s : State) (v : Response) : (s.answer v).port = s.port := rfl
@[simp] theorem State.answer_dataIn (s : State) (v : Response) : (s.answer v).dataIn = s.dataIn := rfl
@[simp] theorem State.answer_events (s : State) (v : Response) : (s.answer v).events = s.events := rfl
@[simp] theorem State.answer_responses (s : State) (v : Response) : (s.answer v).responses = s.responses ++ [v] := rfl
@[simp] theorem State.answer_draws (s : State) (v : Response) : (s.answer v).draws = s.draws := rfl

@[simp] theorem State.respond_life (s : State) (v : Word) : (s.respond v).life = s.life := rfl
@[simp] theorem State.respond_pib (s : State) (v : Word) : (s.respond v).pib = s.pib := rfl
@[simp] theorem State.respond_eng (s : State) (v : Word) : (s.respond v).eng = s.eng := rfl
@[simp] theorem State.respond_queue (s : State) (v : Word) : (s.respond v).queue = s.queue := rfl
@[simp] theorem State.respond_windowActive (s : State) (v : Word) : (s.respond v).windowActive = s.windowActive := rfl
@[simp] theorem State.respond_windowTimer (s : State) (v : Word) : (s.respond v).windowTimer = s.windowTimer := rfl
@[simp] theorem State.respond_radioRx (s : State) (v : Word) : (s.respond v).radioRx = s.radioRx := rfl
@[simp] theorem State.respond_port (s : State) (v : Word) : (s.respond v).port = s.port := rfl
@[simp] theorem State.respond_dataIn (s : State) (v : Word) : (s.respond v).dataIn = s.dataIn := rfl
@[simp] theorem State.respond_events (s : State) (v : Word) : (s.respond v).events = s.events := rfl
@[simp] theorem State.respond_responses (s : State) (v : Word) : (s.respond v).responses = s.responses ++ [⟨true, v, []⟩] := rfl
@[simp] theorem State.respond_draws (s : State) (v : Word) : (s.respond v).draws = s.draws := rfl

@[simp] theorem State.done_life (s : State) : (s.done).life = s.life := rfl
@[simp] theorem State.done_pib (s : State) : (s.done).pib = s.pib := rfl
@[simp] theorem State.done_eng (s : State) : (s.done).eng = s.eng := rfl
@[simp] theorem State.done_queue (s : State) : (s.done).queue = s.queue := rfl
@[simp] theorem State.done_windowActive (s : State) : (s.done).windowActive = s.windowActive := rfl
@[simp] theorem State.done_windowTimer (s : State) : (s.done).windowTimer = s.windowTimer := rfl
@[simp] theorem State.done_radioRx (s : State) : (s.done).radioRx = s.radioRx := rfl
@[simp] theorem State.done_port (s : State) : (s.done).port = s.port := rfl
@[simp] theorem State.done_dataIn (s : State) : (s.done).dataIn = s.dataIn := rfl
@[simp] theorem State.done_events (s : State) : (s.done).events = s.events := rfl
@[simp] theorem State.done_responses (s : State) : (s.done).responses = s.responses ++ [⟨true, 0#32, []⟩] := rfl
@[simp] theorem State.done_draws (s : State) : (s.done).draws = s.draws := rfl

@[simp] theorem State.takeOp_life (s : State) (v : PortOp) (w : List PortOp) : (s.takeOp v w).life = s.life := rfl
@[simp] theorem State.takeOp_pib (s : State) (v : PortOp) (w : List PortOp) : (s.takeOp v w).pib = s.pib := rfl
@[simp] theorem State.takeOp_eng (s : State) (v : PortOp) (w : List PortOp) : (s.takeOp v w).eng = s.eng := rfl
@[simp] theorem State.takeOp_queue (s : State) (v : PortOp) (w : List PortOp) : (s.takeOp v w).queue = s.queue := rfl
@[simp] theorem State.takeOp_windowActive (s : State) (v : PortOp) (w : List PortOp) : (s.takeOp v w).windowActive = s.windowActive := rfl
@[simp] theorem State.takeOp_windowTimer (s : State) (v : PortOp) (w : List PortOp) : (s.takeOp v w).windowTimer = s.windowTimer := rfl
@[simp] theorem State.takeOp_radioRx (s : State) (v : PortOp) (w : List PortOp) : (s.takeOp v w).radioRx = s.radioRx := rfl
@[simp] theorem State.takeOp_port (s : State) (v : PortOp) (w : List PortOp) : (s.takeOp v w).port = w := rfl
@[simp] theorem State.takeOp_dataIn (s : State) (v : PortOp) (w : List PortOp) : (s.takeOp v w).dataIn = v.dataIn := rfl
@[simp] theorem State.takeOp_events (s : State) (v : PortOp) (w : List PortOp) : (s.takeOp v w).events = s.events := rfl
@[simp] theorem State.takeOp_responses (s : State) (v : PortOp) (w : List PortOp) : (s.takeOp v w).responses = s.responses := rfl
@[simp] theorem State.takeOp_draws (s : State) (v : PortOp) (w : List PortOp) : (s.takeOp v w).draws = s.draws := rfl

@[simp] theorem refuse_life (s : State) : (refuse s).life = s.life := rfl
@[simp] theorem refuse_pib (s : State) : (refuse s).pib = s.pib := rfl
@[simp] theorem refuse_eng (s : State) : (refuse s).eng = s.eng := rfl
@[simp] theorem refuse_queue (s : State) : (refuse s).queue = s.queue := rfl
@[simp] theorem refuse_windowActive (s : State) : (refuse s).windowActive = s.windowActive := rfl
@[simp] theorem refuse_windowTimer (s : State) : (refuse s).windowTimer = s.windowTimer := rfl
@[simp] theorem refuse_radioRx (s : State) : (refuse s).radioRx = s.radioRx := rfl
@[simp] theorem refuse_port (s : State) : (refuse s).port = s.port := rfl
@[simp] theorem refuse_dataIn (s : State) : (refuse s).dataIn = s.dataIn := rfl
@[simp] theorem refuse_events (s : State) : (refuse s).events = s.events := rfl
@[simp] theorem refuse_responses (s : State) : (refuse s).responses = s.responses ++ [⟨false, 0#32, []⟩] := rfl
@[simp] theorem refuse_draws (s : State) : (refuse s).draws = s.draws := rfl

end Sys2Proof.Machine
end

