-- ==== Sys2Proof/Laws/Ops.lean ====
section
/-! SUPPORT. What each shared operation can do, said once: the cases of the procedures, the fields an engine procedure
leaves alone, the confirm it gives or still owes, and the receiver events of the stream. -/

namespace Sys2Proof.Machine

/-! ## Events -/

theorem lastRadioRx_append (es fs : List Event) :
    lastRadioRx (es ++ fs) = (lastRadioRx fs).or (lastRadioRx es) := by
  induction fs using List.reverseRecOn with
  | nil => simp [lastRadioRx]
  | append_singleton fs e ih =>
    rw [← List.append_assoc]
    cases e <;> simp_all [lastRadioRx, List.foldl_append]

@[simp] theorem lastRadioRx_radioRx (es : List Event) (on : Bool) : lastRadioRx (es ++ [.radioRx on]) = some on := by
  simp [lastRadioRx]

theorem confirmsOf_append (h : Byte) (es fs : List Event) :
    confirmsOf h (es ++ fs) = confirmsOf h es + confirmsOf h fs := by
  simp [confirmsOf]

theorem transmissions_append (es fs : List Event) : transmissions (es ++ fs) = transmissions es + transmissions fs := by
  simp [transmissions]

/-- The confirms an expiry of held entries emits, as a list of events. -/
theorem confirmsOf_expired (h : Byte) (q : List Entry) :
    confirmsOf h (q.map (fun e => .confData e.handle .transactionExpired)) =
      q.countP (fun e => decide (e.handle = h)) := by
  induction q with
  | nil => rfl
  | cons e q ih => simp_all [confirmsOf, List.countP_cons]

/-- The expiry of held entries drives no receiver. -/
theorem lastRadioRx_expired (q : List Entry) :
    lastRadioRx (q.map (fun e => .confData e.handle .transactionExpired)) = none := by
  induction q using List.reverseRecOn with
  | nil => rfl
  | append_singleton q e ih => rw [List.map_append, lastRadioRx_append, ih]; rfl

/-! ## Words and their bytes -/

/-- Four byte fields in place make the word of the four bytes, the highest first (spec/00_scope.md R9). -/
theorem fieldAt_bytes (a b c d : Byte) :
    fieldAt a 24 ||| fieldAt b 16 ||| fieldAt c 8 ||| fieldAt d 0 = (a ++ b ++ c ++ d : BitVec 32) := by
  apply BitVec.eq_of_getLsbD_eq
  intro i hi
  show _ = BitVec.getLsbD (w := 8 + 8 + 8 + 8) (a ++ b ++ c ++ d) i
  simp only [fieldAt, BitVec.getLsbD_append, BitVec.getLsbD_or, BitVec.getLsbD_shiftLeft, BitVec.getLsbD_setWidth]
  interval_cases i <;> simp

/-- The response value of a parse is `{status, code, len}` (R141, R143). -/
theorem parseValue_eq (status code : Byte) (len : Half) :
    parseValue status code len = (status ++ code ++ len : BitVec 32) := by
  apply BitVec.eq_of_getLsbD_eq
  intro i hi
  show _ = BitVec.getLsbD (w := 8 + 8 + 16) (status ++ code ++ len) i
  simp only [parseValue, fieldAt, BitVec.getLsbD_append, BitVec.getLsbD_or, BitVec.getLsbD_shiftLeft,
    BitVec.getLsbD_setWidth]
  interval_cases i <;> simp

/-- A header's length is its two bytes, the later one high (R62). -/
theorem headerLen_eq (b1 b2 : Byte) : headerLen b1 b2 = (b2 ++ b1 : BitVec 16) := by
  apply BitVec.eq_of_getLsbD_eq
  intro i hi
  show _ = BitVec.getLsbD (w := 8 + 8) (b2 ++ b1) i
  simp only [headerLen, BitVec.getLsbD_append, BitVec.getLsbD_or, BitVec.getLsbD_shiftLeft, BitVec.getLsbD_setWidth]
  interval_cases i <;> simp

theorem headerLen_toNat (b1 b2 : Byte) : (headerLen b1 b2).toNat = b1.toNat + 256 * b2.toNat := by
  rw [headerLen_eq]
  show BitVec.toNat (w := 8 + 8) (b2 ++ b1) = _
  rw [BitVec.toNat_append, ← Nat.shiftLeft_add_eq_or_of_lt b1.isLt, Nat.shiftLeft_eq]
  omega

/-! ## CHCI_CODES (R99) -/

theorem chciCommand_range (k : Fin 12) : 0x01 ≤ (Config.chciCommand k).toNat ∧ (Config.chciCommand k).toNat ≤ 0x0C := by
  have h := (Config.chciCommandOrder k).isLt
  simp only [Config.chciCommand, BitVec.toNat_ofNat]
  omega

theorem chciEvent_range (k : Fin 17) : 0x81 ≤ (Config.chciEvent k).toNat ∧ (Config.chciEvent k).toNat ≤ 0x91 := by
  have h := (Config.chciEventOrder k).isLt
  simp only [Config.chciEvent, BitVec.toNat_ofNat]
  omega

theorem chciCommand_injective : Function.Injective Config.chciCommand := by
  intro j k h
  have hj := (Config.chciCommandOrder j).isLt
  have hk := (Config.chciCommandOrder k).isLt
  have h' := congrArg BitVec.toNat h
  simp only [Config.chciCommand, BitVec.toNat_ofNat] at h'
  exact Config.chciCommandOrder.injective (Fin.ext (by omega))

theorem chciEvent_injective : Function.Injective Config.chciEvent := by
  intro j k h
  have hj := (Config.chciEventOrder j).isLt
  have hk := (Config.chciEventOrder k).isLt
  have h' := congrArg BitVec.toNat h
  simp only [Config.chciEvent, BitVec.toNat_ofNat] at h'
  exact Config.chciEventOrder.injective (Fin.ext (by omega))

theorem chciCommand_ne_chciEvent (j : Fin 12) (k : Fin 17) : Config.chciCommand j ≠ Config.chciEvent k := fun h => by
  have hj := chciCommand_range j
  have hk := chciEvent_range k
  rw [h] at hj
  omega

/-- The platform's CHCI_CODES are legal, whatever the open orders are (R95, R96, R99). -/
theorem chciCode_wf : chciCodesWf Config.chciCode = true := by
  have d : ∀ j k : Fin 12, j ≠ k → Config.chciCommand j ≠ Config.chciCommand k := fun _ _ h e => h (chciCommand_injective e)
  have e : ∀ j k : Fin 17, j ≠ k → Config.chciEvent j ≠ Config.chciEvent k := fun _ _ h e => h (chciEvent_injective e)
  simp [chciCodesWf, commandEventMessages, ChciMessage.assigned, ChciMessage.channel, ChciMessage.direction,
    Config.chciCode, chciCommand_range, chciEvent_range, chciCommand_ne_chciEvent, d, e]

theorem classifyCode_command {code : Byte} (h : 0x01 ≤ code.toNat ∧ code.toNat ≤ 0x0C) :
    classifyCode .commandEvent code = .command := if_pos h

theorem classifyCode_event {code : Byte} (h : 0x81 ≤ code.toNat ∧ code.toNat ≤ 0x91) :
    classifyCode .commandEvent code = .event := by
  unfold classifyCode
  rw [if_neg (by omega), if_neg (by omega), if_pos h]

/-- The codec accepts every message of the block in its direction, whatever assigned code it has (R99, R147). -/
theorem acceptable_of_assigned {m : ChciMessage} {code : Byte} (h : m.assigned code = true) :
    acceptable m.channel m.direction code = true := by
  cases m
  case dataRequest => simp_all [ChciMessage.assigned, acceptable, ChciMessage.channel, ChciMessage.direction, classifyCode]
  all_goals
    first
    | exact decide_eq_true (classifyCode_command (of_decide_eq_true h))
    | exact decide_eq_true (classifyCode_event (of_decide_eq_true h))

/-! ## Cases of the procedures -/

/-- StartBackoff draws `r`, in range, and either asks for the CCA at once or counts `r` periods down (R176, R179). -/
theorem startBackoff_cases (c : Params) (s : State) :
    ∃ r, r = c.backoffDraw s.draws % 2 ^ s.eng.BE.toNat ∧ r < 2 ^ s.eng.BE.toNat ∧
      ((r * c.unitBackoffPeriod = 0 ∧ startBackoff c s = issueCca (s.setDraws (s.draws + 1))) ∨
        (1 ≤ r * c.unitBackoffPeriod ∧ startBackoff c s = (s.setDraws (s.draws + 1)).setEng
          { s.eng with backoffTimer := r * c.unitBackoffPeriod, st := .backoff })) := by
  refine ⟨_, rfl, Nat.mod_lt _ (Nat.two_pow_pos _), ?_⟩
  by_cases h : drawBackoff c s * c.unitBackoffPeriod = 0
  · exact .inl ⟨h, by simp [startBackoff, h]⟩
  · exact .inr ⟨Nat.one_le_iff_ne_zero.mpr h, by rw [startBackoff, if_neg h, drawBackoff]⟩

/-- StartCycle transmits, fails, or starts a backoff (R178). -/
theorem startCycle_cases (c : Params) (s : State) :
    (s.eng.sDisableCCA = true ∧ startCycle c s = transmit s) ∨
    (s.eng.sDisableCCA = false ∧ ccaLimit c s.eng = 0 ∧
      startCycle c s = finish .channelAccessFailure (cycleStart s)) ∨
    (s.eng.sDisableCCA = false ∧ 1 ≤ ccaLimit c s.eng ∧ startCycle c s = startBackoff c (cycleStart s)) := by
  unfold startCycle
  split
  · exact .inl ⟨‹_›, rfl⟩
  · split
    · exact .inr (.inl ⟨by simp_all, ‹_›, rfl⟩)
    · exact .inr (.inr ⟨by simp_all, by omega, rfl⟩)

/-- AckFail starts a retry cycle or ends the request with NO_ACK (R182). -/
theorem ackFail_cases (c : Params) (s : State) :
    (s.eng.retries.toNat < s.eng.sMaxFR.toNat ∧
      ackFail c s = startCycle c (s.setEng { s.eng with retries := s.eng.retries + 1 })) ∨
    (s.eng.sMaxFR.toNat ≤ s.eng.retries.toNat ∧ ackFail c s = finish .noAck s) := by
  unfold ackFail
  split
  · exact .inl ⟨‹_›, rfl⟩
  · exact .inr ⟨by omega, rfl⟩

/-- StartRequest ends at once when the total time is 0, or starts the first cycle (R177). -/
theorem startRequest_cases (c : Params) (h l : Byte) (a : Bool) (s : State) :
    (s.pib.maxFrameTotalWaitTime = 0 ∧ startRequest c h l a s = finish c.totalWaitStatus (latchRequest h l a s)) ∨
    (s.pib.maxFrameTotalWaitTime ≠ 0 ∧ startRequest c h l a s = startCycle c (loadTotal (latchRequest h l a s))) := by
  unfold startRequest
  split
  · exact .inl ⟨‹_›, rfl⟩
  · exact .inr ⟨‹_›, rfl⟩

/-- The state's timer in one tick (R187). -/
theorem stateTick_cases (c : Params) (s : State) :
    (s.eng.st = .backoff ∧ s.eng.backoffTimer ≤ 1 ∧
      stateTick c s = issueCca (s.setEng { s.eng with backoffTimer := s.eng.backoffTimer - 1 })) ∨
    (s.eng.st = .backoff ∧ 2 ≤ s.eng.backoffTimer ∧
      stateTick c s = s.setEng { s.eng with backoffTimer := s.eng.backoffTimer - 1 }) ∨
    (s.eng.st = .ackWait ∧ s.eng.ackTimer = 1 ∧
      stateTick c s = ackFail c (s.setEng { s.eng with ackTimer := 0 })) ∨
    (s.eng.st = .ackWait ∧ s.eng.ackTimer ≠ 1 ∧
      stateTick c s = s.setEng { s.eng with ackTimer := s.eng.ackTimer - 1 }) ∨
    (s.eng.st ≠ .backoff ∧ s.eng.st ≠ .ackWait ∧ stateTick c s = s) := by
  rcases hst : s.eng.st with _ | _ | _ | _ | _
  · simp [stateTick, hst]
  · by_cases h : s.eng.backoffTimer - 1 = 0
    · refine .inl ⟨rfl, by omega, ?_⟩
      unfold stateTick
      rw [hst]
      exact if_pos h
    · refine .inr (.inl ⟨rfl, by omega, ?_⟩)
      unfold stateTick
      rw [hst]
      exact if_neg h
  · simp [stateTick, hst]
  · simp [stateTick, hst]
  · by_cases h : s.eng.ackTimer = 1
    · refine .inr (.inr (.inl ⟨rfl, h, ?_⟩))
      simp [stateTick, hst, h]
    · have h' : s.eng.ackTimer - 1 ≠ 0 := by bv_omega
      refine .inr (.inr (.inr (.inl ⟨rfl, h, ?_⟩)))
      unfold stateTick
      rw [hst]
      exact if_neg h'

/-- The engine in one tick: nothing in IDLE, the total timer's abort first, else the state's timer (R187). -/
theorem engineTick_cases (c : Params) (s : State) :
    (s.eng.st = .idle ∧ engineTick c s = s) ∨
    (s.eng.st ≠ .idle ∧ s.eng.totalTimer = 1 ∧ engineTick c s = finish c.totalWaitStatus (totalTick s)) ∨
    (s.eng.st ≠ .idle ∧ s.eng.totalTimer ≠ 1 ∧ engineTick c s = stateTick c (totalTick s)) := by
  by_cases h : s.eng.st = .idle
  · exact .inl ⟨h, if_pos h⟩
  · by_cases ht : s.eng.totalTimer = 1
    · refine .inr (.inl ⟨h, ht, ?_⟩)
      simp [engineTick, h, ht]
    · have ht' : s.eng.totalTimer - 1 ≠ 0 := by bv_omega
      refine .inr (.inr ⟨h, ht, ?_⟩)
      rw [engineTick, if_neg h, if_neg ht']

/-- The window in one tick (R255). -/
theorem windowTick_cases (s : State) :
    (s.windowActive = false ∧ windowTick s = s) ∨
    (s.windowActive = true ∧ s.windowTimer = 1 ∧ windowTick s = applyRx (s.setWindow false 0)) ∨
    (s.windowActive = true ∧ s.windowTimer ≠ 1 ∧ windowTick s = s.setWindow true (s.windowTimer - 1)) := by
  unfold windowTick
  rcases h : s.windowActive
  · simp
  · by_cases ht : s.windowTimer = 1
    · simp [ht]
    · have ht' : s.windowTimer - 1 ≠ 0 := by bv_omega
      simp only [ht', if_false, if_true]
      exact .inr (.inr ⟨trivial, ht, trivial⟩)

/-- A run of ticks splits anywhere (R186). -/
theorem ticks_add (c : Params) (m n : Nat) (s : State) : ticks c (m + n) s = ticks c n (ticks c m s) := by
  induction m generalizing s with
  | zero => simp [ticks]
  | succ m ih => rw [Nat.succ_add]; exact ih _

/-- An induction over ticks, packaged once: what one tick keeps, a run of ticks keeps. -/
theorem ticks_keep (c : Params) (P : State → Prop) (h : ∀ s, P s → P (oneTick c s)) (n : Nat) (s : State)
    (hs : P s) : P (ticks c n s) := by
  induction n generalizing s with
  | zero => exact hs
  | succ n ih => exact ih _ (h s hs)

/-! ## What an engine procedure leaves alone -/

/-- The fields outside the engine: everything but the engine's registers, `dsn`, the output stream and the oracle's
counter is unchanged. -/
structure EngineFrame (s t : State) : Prop where
  life : t.life = s.life
  pib : t.pib = { s.pib with dsn := t.pib.dsn }
  queue : t.queue = s.queue
  windowActive : t.windowActive = s.windowActive
  windowTimer : t.windowTimer = s.windowTimer
  radioRx : t.radioRx = s.radioRx
  port : t.port = s.port
  dataIn : t.dataIn = s.dataIn
  responses : t.responses = s.responses

theorem EngineFrame.refl (s : State) : EngineFrame s s := ⟨rfl, rfl, rfl, rfl, rfl, rfl, rfl, rfl, rfl⟩

theorem EngineFrame.trans {s t u : State} (h : EngineFrame s t) (k : EngineFrame t u) : EngineFrame s u :=
  ⟨k.life.trans h.life, by rw [k.pib, h.pib], k.queue.trans h.queue, k.windowActive.trans h.windowActive,
    k.windowTimer.trans h.windowTimer, k.radioRx.trans h.radioRx, k.port.trans h.port, k.dataIn.trans h.dataIn,
    k.responses.trans h.responses⟩

theorem setEng_frame (s : State) (e : Engine) : EngineFrame s (s.setEng e) :=
  ⟨rfl, rfl, rfl, rfl, rfl, rfl, rfl, rfl, rfl⟩

theorem setDraws_frame (s : State) (n : Nat) : EngineFrame s (s.setDraws n) :=
  ⟨rfl, rfl, rfl, rfl, rfl, rfl, rfl, rfl, rfl⟩

theorem finish_frame (st : Status) (s : State) : EngineFrame s (finish st s) :=
  ⟨rfl, rfl, rfl, rfl, rfl, rfl, rfl, rfl, rfl⟩

theorem assignSeq_frame (s : State) : EngineFrame s (assignSeq s) := by
  unfold assignSeq
  split
  · exact .refl s
  · exact ⟨rfl, rfl, rfl, rfl, rfl, rfl, rfl, rfl, rfl⟩

theorem transmit_frame (s : State) : EngineFrame s (transmit s) :=
  (assignSeq_frame s).trans ⟨rfl, rfl, rfl, rfl, rfl, rfl, rfl, rfl, rfl⟩

theorem issueCca_frame (s : State) : EngineFrame s (issueCca s) := ⟨rfl, rfl, rfl, rfl, rfl, rfl, rfl, rfl, rfl⟩

theorem startBackoff_frame (c : Params) (s : State) : EngineFrame s (startBackoff c s) := by
  obtain ⟨r, -, -, ⟨-, h⟩ | ⟨-, h⟩⟩ := startBackoff_cases c s <;> rw [h]
  · exact (setDraws_frame s _).trans (issueCca_frame _)
  · exact (setDraws_frame s _).trans (setEng_frame _ _)

theorem startCycle_frame (c : Params) (s : State) : EngineFrame s (startCycle c s) := by
  obtain ⟨-, h⟩ | ⟨-, -, h⟩ | ⟨-, -, h⟩ := startCycle_cases c s <;> rw [h]
  · exact transmit_frame s
  · exact (setEng_frame s _).trans (finish_frame _ _)
  · exact (setEng_frame s _).trans (startBackoff_frame c _)

theorem startRequest_frame (c : Params) (h l : Byte) (a : Bool) (s : State) :
    EngineFrame s (startRequest c h l a s) := by
  obtain ⟨-, h⟩ | ⟨-, h⟩ := startRequest_cases c h l a s <;> rw [h]
  · exact (setEng_frame s _).trans (finish_frame _ _)
  · exact ((setEng_frame s _).trans (setEng_frame _ _)).trans (startCycle_frame c _)

theorem ackFail_frame (c : Params) (s : State) : EngineFrame s (ackFail c s) := by
  obtain ⟨-, h⟩ | ⟨-, h⟩ := ackFail_cases c s <;> rw [h]
  · exact (setEng_frame s _).trans (startCycle_frame c _)
  · exact finish_frame _ _

theorem stateTick_frame (c : Params) (s : State) : EngineFrame s (stateTick c s) := by
  obtain ⟨-, -, h⟩ | ⟨-, -, h⟩ | ⟨-, -, h⟩ | ⟨-, -, h⟩ | ⟨-, -, h⟩ := stateTick_cases c s <;> rw [h]
  · exact (setEng_frame s _).trans (issueCca_frame _)
  · exact setEng_frame s _
  · exact (setEng_frame s _).trans (ackFail_frame c _)
  · exact setEng_frame s _
  · exact .refl s

theorem engineTick_frame (c : Params) (s : State) : EngineFrame s (engineTick c s) := by
  obtain ⟨-, h⟩ | ⟨-, -, h⟩ | ⟨-, -, h⟩ := engineTick_cases c s <;> rw [h]
  · exact .refl s
  · exact (setEng_frame s _).trans (finish_frame _ _)
  · exact (setEng_frame s _).trans (stateTick_frame c _)

/-! ## What an engine procedure reads -/

/-- Two states an engine procedure cannot tell apart: the same engine, `dsn` and oracle counter (R27, R259). -/
structure EngineAlike (s s' : State) : Prop where
  eng : s.eng = s'.eng
  dsn : s.pib.dsn = s'.pib.dsn
  draws : s.draws = s'.draws

/-- Two runs that began alike are still alike, and emitted the same. -/
structure EngineSame (s s' t t' : State) : Prop where
  alike : EngineAlike t t'
  events : ∃ es, t.events = s.events ++ es ∧ t'.events = s'.events ++ es

theorem EngineSame.refl {s s' : State} (h : EngineAlike s s') : EngineSame s s' s s' := ⟨h, [], by simp, by simp⟩

theorem EngineSame.trans {s s' t t' u u' : State} (h : EngineSame s s' t t') (k : EngineSame t t' u u') :
    EngineSame s s' u u' := by
  obtain ⟨-, es, a, a'⟩ := h
  obtain ⟨hu, fs, b, b'⟩ := k
  exact ⟨hu, es ++ fs, by simp [a, b], by simp [a', b']⟩

theorem setEng_same {s s' : State} (h : EngineAlike s s') {e e' : Engine} (he : e = e') :
    EngineSame s s' (s.setEng e) (s'.setEng e') := ⟨⟨he, h.dsn, h.draws⟩, [], by simp, by simp⟩

theorem emit_same {s s' : State} (h : EngineAlike s s') {e e' : Event} (he : e = e') :
    EngineSame s s' (s.emit e) (s'.emit e') := ⟨⟨h.eng, h.dsn, h.draws⟩, [e], rfl, by rw [he]; rfl⟩

theorem setDraws_same {s s' : State} (h : EngineAlike s s') {n n' : Nat} (hn : n = n') :
    EngineSame s s' (s.setDraws n) (s'.setDraws n') := ⟨⟨h.eng, h.dsn, hn⟩, [], by simp, by simp⟩

theorem finish_same {s s' : State} (h : EngineAlike s s') (st : Status) :
    EngineSame s s' (finish st s) (finish st s') :=
  have e := emit_same h (e := .confData s.eng.handle st) (e' := .confData s'.eng.handle st) (by rw [h.eng])
  e.trans (setEng_same e.alike rfl)

theorem assignSeq_same {s s' : State} (h : EngineAlike s s') : EngineSame s s' (assignSeq s) (assignSeq s') := by
  have hv : s.eng.seqValid = s'.eng.seqValid := by rw [h.eng]
  unfold assignSeq
  by_cases hs : s'.eng.seqValid = true
  · rw [if_pos hs, if_pos (hv.trans hs)]; exact .refl h
  · rw [if_neg hs, if_neg (hv ▸ hs)]
    exact ⟨⟨by simp [h.eng, h.dsn], by simp [h.dsn], h.draws⟩, [], by simp, by simp⟩

theorem transmit_same {s s' : State} (h : EngineAlike s s') : EngineSame s s' (transmit s) (transmit s') := by
  have a := assignSeq_same h
  have e := a.trans (emit_same a.alike (e := .radioTx (assignSeq s).eng.seq (assignSeq s).eng.handle
    (assignSeq s).eng.len (assignSeq s).eng.ackReq) (by rw [a.alike.eng]))
  exact e.trans (setEng_same e.alike (by simp [a.alike.eng]))

theorem issueCca_same {s s' : State} (h : EngineAlike s s') : EngineSame s s' (issueCca s) (issueCca s') :=
  have e := emit_same h (e := .radioCca) rfl
  e.trans (setEng_same e.alike (by rw [h.eng]))

theorem startBackoff_same (c : Params) {s s' : State} (h : EngineAlike s s') :
    EngineSame s s' (startBackoff c s) (startBackoff c s') := by
  have hd : drawBackoff c s = drawBackoff c s' := by rw [drawBackoff, drawBackoff, h.eng, h.draws]
  have a := setDraws_same h (n := s.draws + 1) (n' := s'.draws + 1) (by rw [h.draws])
  unfold startBackoff
  rw [hd]
  split
  · exact a.trans (issueCca_same a.alike)
  · exact a.trans (setEng_same a.alike (by rw [h.eng]))

theorem cycleStart_same {s s' : State} (h : EngineAlike s s') : EngineSame s s' (cycleStart s) (cycleStart s') :=
  setEng_same h (by rw [h.eng])

theorem startCycle_same (c : Params) {s s' : State} (h : EngineAlike s s') :
    EngineSame s s' (startCycle c s) (startCycle c s') := by
  have a := cycleStart_same h
  unfold startCycle
  rw [h.eng]
  split
  · exact transmit_same h
  · split
    · exact a.trans (finish_same a.alike _)
    · exact a.trans (startBackoff_same c a.alike)

theorem ackFail_same (c : Params) {s s' : State} (h : EngineAlike s s') :
    EngineSame s s' (ackFail c s) (ackFail c s') := by
  have a := setEng_same h (e := { s.eng with retries := s.eng.retries + 1 })
    (e' := { s'.eng with retries := s'.eng.retries + 1 }) (by rw [h.eng])
  have hr : s.eng.retries.toNat < s.eng.sMaxFR.toNat ↔ s'.eng.retries.toNat < s'.eng.sMaxFR.toNat := by rw [h.eng]
  unfold ackFail
  by_cases hs : s'.eng.retries.toNat < s'.eng.sMaxFR.toNat
  · rw [if_pos hs, if_pos (hr.mpr hs)]; exact a.trans (startCycle_same c a.alike)
  · rw [if_neg hs, if_neg (fun k => hs (hr.mp k))]; exact finish_same h _

theorem stateTick_same (c : Params) {s s' : State} (h : EngineAlike s s') :
    EngineSame s s' (stateTick c s) (stateTick c s') := by
  have b := setEng_same h (e := { s.eng with backoffTimer := s.eng.backoffTimer - 1 })
    (e' := { s'.eng with backoffTimer := s'.eng.backoffTimer - 1 }) (by rw [h.eng])
  have a := setEng_same h (e := { s.eng with ackTimer := s.eng.ackTimer - 1 })
    (e' := { s'.eng with ackTimer := s'.eng.ackTimer - 1 }) (by rw [h.eng])
  unfold stateTick
  rw [h.eng] at a b ⊢
  split
  · split
    · exact b.trans (issueCca_same b.alike)
    · exact b
  · split
    · exact a.trans (ackFail_same c a.alike)
    · exact a
  all_goals exact .refl h

theorem engineTick_same (c : Params) {s s' : State} (h : EngineAlike s s') :
    EngineSame s s' (engineTick c s) (engineTick c s') := by
  have a : EngineSame s s' (totalTick s) (totalTick s') := setEng_same h (by rw [h.eng])
  unfold engineTick
  rw [h.eng]
  split
  · exact .refl h
  · split
    · exact a.trans (finish_same a.alike _)
    · exact a.trans (stateTick_same c a.alike)

/-! ## The confirm an engine procedure gives or still owes, and the events it emits -/

/-- One for the request in the engine, for its handle (R191). -/
def engineLive (e : Engine) (h : Byte) : Nat := if e.st ≠ .idle ∧ e.handle = h then 1 else 0

/-- The request the engine's registers name is confirmed once or still in the engine, and no RADIO_RX is emitted. -/
def Settles (s t : State) : Prop :=
  ∃ es, t.events = s.events ++ es ∧ lastRadioRx es = none ∧
    ∀ h, confirmsOf h es + engineLive t.eng h = if s.eng.handle = h then 1 else 0

theorem finish_settles (st : Status) (s : State) : Settles s (finish st s) :=
  ⟨[.confData s.eng.handle st], rfl, rfl, fun h => by simp [finish, confirmsOf, engineLive, Engine.idle]⟩

theorem assignSeq_events (s : State) : (assignSeq s).events = s.events := by
  unfold assignSeq
  split <;> rfl

theorem assignSeq_handle (s : State) : (assignSeq s).eng.handle = s.eng.handle := by
  unfold assignSeq
  split <;> rfl

theorem transmit_settles (s : State) : Settles s (transmit s) :=
  ⟨[.radioTx (assignSeq s).eng.seq (assignSeq s).eng.handle (assignSeq s).eng.len (assignSeq s).eng.ackReq],
    by simp [transmit, sendFrame, assignSeq_events], rfl,
    fun h => by simp [transmit, sendFrame, confirmsOf, engineLive, assignSeq_handle]⟩

theorem issueCca_settles (s : State) : Settles s (issueCca s) :=
  ⟨[.radioCca], rfl, rfl, fun h => by simp [issueCca, confirmsOf, engineLive]⟩

theorem startBackoff_settles (c : Params) (s : State) : Settles s (startBackoff c s) := by
  obtain ⟨r, -, -, ⟨-, h⟩ | ⟨-, h⟩⟩ := startBackoff_cases c s <;> rw [h]
  · exact issueCca_settles (s.setDraws (s.draws + 1))
  · exact ⟨[], by simp, rfl, fun h => by simp [confirmsOf, engineLive]⟩

theorem startCycle_settles (c : Params) (s : State) : Settles s (startCycle c s) := by
  obtain ⟨-, h⟩ | ⟨-, -, h⟩ | ⟨-, -, h⟩ := startCycle_cases c s <;> rw [h]
  · exact transmit_settles s
  · exact finish_settles _ (cycleStart s)
  · exact startBackoff_settles c (cycleStart s)

theorem startRequest_settles (c : Params) (h l : Byte) (a : Bool) (s : State) :
    Settles (latchRequest h l a s) (startRequest c h l a s) := by
  obtain ⟨-, h⟩ | ⟨-, h⟩ := startRequest_cases c h l a s <;> rw [h]
  · exact finish_settles _ _
  · exact startCycle_settles c _

theorem ackFail_settles (c : Params) (s : State) : Settles s (ackFail c s) := by
  obtain ⟨-, h⟩ | ⟨-, h⟩ := ackFail_cases c s <;> rw [h]
  · exact startCycle_settles c (s.setEng _)
  · exact finish_settles _ s

theorem stateTick_settles (c : Params) (s : State) (hs : s.eng.st ≠ .idle) : Settles s (stateTick c s) := by
  obtain ⟨h, -, e⟩ | ⟨h, -, e⟩ | ⟨h, -, e⟩ | ⟨h, -, e⟩ | ⟨h, h', e⟩ := stateTick_cases c s <;> rw [e]
  · exact issueCca_settles (s.setEng _)
  · exact ⟨[], by simp, rfl, fun k => by simp [confirmsOf, engineLive, h]⟩
  · exact ackFail_settles c (s.setEng _)
  · exact ⟨[], by simp, rfl, fun k => by simp [confirmsOf, engineLive, h]⟩
  · exact ⟨[], by simp, rfl, fun k => by simp [confirmsOf, engineLive, hs]⟩

theorem engineTick_settles (c : Params) (s : State) (hs : s.eng.st ≠ .idle) : Settles s (engineTick c s) := by
  obtain ⟨h, -⟩ | ⟨-, -, e⟩ | ⟨-, -, e⟩ := engineTick_cases c s
  · exact absurd h hs
  · rw [e]; exact finish_settles _ (totalTick s)
  · rw [e]; exact stateTick_settles c (totalTick s) hs

/-! ## One tick as a whole -/

/-- What the window's tick leaves alone. -/
theorem windowTick_keeps (s : State) :
    (windowTick s).life = s.life ∧ (windowTick s).pib = s.pib ∧ (windowTick s).eng = s.eng ∧
      (windowTick s).queue = s.queue ∧ (windowTick s).port = s.port ∧ (windowTick s).dataIn = s.dataIn ∧
      (windowTick s).responses = s.responses ∧ (windowTick s).draws = s.draws := by
  obtain ⟨-, e⟩ | ⟨-, -, e⟩ | ⟨-, -, e⟩ := windowTick_cases s <;> rw [e] <;>
    exact ⟨rfl, rfl, rfl, rfl, rfl, rfl, rfl, rfl⟩

/-- The engine of one tick is the engine's tick (R187, R228). -/
theorem oneTick_eng (c : Params) (s : State) : (oneTick c s).eng = (engineTick c s).eng :=
  (windowTick_keeps (queueTick (engineTick c s))).2.2.1

/-- The queue of one tick (R226). -/
theorem oneTick_queue (c : Params) (s : State) :
    (oneTick c s).queue = (s.queue.map Entry.aged).filter (fun e => !e.expired) := by
  rw [oneTick, (windowTick_keeps (queueTick (engineTick c s))).2.2.2.1]
  simp [queueTick, (engineTick_frame c s).queue]

theorem oneTick_pib (c : Params) (s : State) : (oneTick c s).pib = (engineTick c s).pib :=
  (windowTick_keeps (queueTick (engineTick c s))).2.1

theorem oneTick_life (c : Params) (s : State) : (oneTick c s).life = s.life :=
  (windowTick_keeps (queueTick (engineTick c s))).1.trans (engineTick_frame c s).life

theorem oneTick_responses (c : Params) (s : State) : (oneTick c s).responses = s.responses :=
  (windowTick_keeps (queueTick (engineTick c s))).2.2.2.2.2.2.1.trans (engineTick_frame c s).responses

theorem ticks_life (c : Params) (n : Nat) (s : State) : (ticks c n s).life = s.life :=
  ticks_keep c (fun t => t.life = s.life) (fun t h => (oneTick_life c t).trans h) n s rfl

theorem ticks_responses (c : Params) (n : Nat) (s : State) : (ticks c n s).responses = s.responses :=
  ticks_keep c (fun t => t.responses = s.responses) (fun t h => (oneTick_responses c t).trans h) n s rfl

/-- One tick adds to the engine's events those of the queue's expiries and of the window's close. -/
theorem oneTick_events (c : Params) (s : State) :
    ∃ es, (oneTick c s).events = (engineTick c s).events ++ es := by
  unfold oneTick
  obtain ⟨-, e⟩ | ⟨-, -, e⟩ | ⟨-, -, e⟩ := windowTick_cases (queueTick (engineTick c s)) <;> rw [e]
  · exact ⟨_, rfl⟩
  · exact ⟨_, by simp [queueTick, applyRx]; rfl⟩
  · exact ⟨_, rfl⟩

/-! ## The indirect queue -/

theorem oldest_eq_none {q : List Entry} {h : Byte} : oldest q h = none ↔ findHandle q h = none := by
  simp [oldest, findHandle]

/-- The oldest entry stands at position `find(h)` and `withoutOldest` removes that position (R220). -/
theorem oldest_eq_some {q : List Entry} {h : Byte} {e : Entry} (he : oldest q h = some e) :
    ∃ i, findHandle q h = some i ∧ q[i]? = some e ∧ withoutOldest q h = q.eraseIdx i ∧ e.handle = h := by
  induction q with
  | nil => simp [oldest] at he
  | cons x q ih =>
    by_cases hx : x.handle = h
    · refine ⟨0, ?_⟩
      simp_all [oldest, findHandle, withoutOldest, List.findIdx?_cons]
    · obtain ⟨i, h1, h2, h3, h4⟩ := ih (by simpa [oldest, List.find?_cons, hx] using he)
      refine ⟨i + 1, ?_, by simpa using h2, ?_, h4⟩
      · simp_all [findHandle, List.findIdx?_cons]
      · simp_all [withoutOldest]

/-! ## Expiry of held entries (R226) -/

theorem aged_toNat {e : Entry} (h : 1 ≤ e.persist.toNat) : e.aged.persist.toNat = e.persist.toNat - 1 := by
  simp only [Entry.aged]
  bv_omega

theorem aged_expired {e : Entry} (h : 1 ≤ e.persist.toNat) : e.aged.expired = decide (e.persist.toNat = 1) := by
  simp only [Entry.aged, Entry.expired]
  apply decide_eq_decide.mpr
  constructor <;> intro h' <;> bv_omega

/-- The confirms of n + 1 ticks are those of the first tick, then those of n ticks of the queue the first one leaves. -/
theorem expiryConfirms_oneTick {q : List Entry} (hq : ∀ e ∈ q, 1 ≤ e.persist.toNat) (n : Nat) :
    expiryConfirms q (n + 1) =
      ((q.map Entry.aged).filter Entry.expired).map (fun e => .confData e.handle .transactionExpired) ++
        expiryConfirms ((q.map Entry.aged).filter (fun e => !e.expired)) n := by
  have now : ((q.map Entry.aged).filter Entry.expired).map (fun e => Event.confData e.handle .transactionExpired) =
      (q.filter (fun e => decide (e.persist.toNat = 1))).map (fun e => .confData e.handle .transactionExpired) := by
    rw [List.filter_map, List.map_map, List.filter_congr (p := Entry.expired ∘ Entry.aged) fun e he => aged_expired (hq e he)]
    rfl
  have later : ∀ k, 1 ≤ k →
      (((q.map Entry.aged).filter (fun e => !e.expired)).filter (fun e => decide (e.persist.toNat = k))).map
        (fun e => Event.confData e.handle .transactionExpired) =
      (q.filter (fun e => decide (e.persist.toNat = k + 1))).map (fun e => .confData e.handle .transactionExpired) := by
    intro k hk
    have : ∀ e ∈ q, ((fun e => decide (e.persist.toNat = k) && !e.expired) ∘ Entry.aged) e =
        decide (e.persist.toNat = k + 1) := by
      intro e he
      have := hq e he
      simp only [Function.comp, aged_toNat this, aged_expired this, ← decide_not, ← Bool.decide_and]
      exact decide_eq_decide.mpr (by omega)
    rw [List.filter_filter, List.filter_map, List.map_map, List.filter_congr this]
    rfl
  rw [now]
  induction n with
  | zero => simp [expiryConfirms]
  | succ n ih => rw [expiryConfirms, ih, expiryConfirms, List.append_assoc, later (n + 1) (by omega)]

/-! ## The PIB and the window -/

/-- A legal value fits its register: reading after the write gives the value (R65). -/
theorem readPib_writePib {p : Pib} {r : PibReg} {v : Half} (h : legalPib p r v = true) :
    readPib (writePib p r v) r = v := by
  have bit : ∀ v : Half, v.toNat ≤ 1 → (BitVec.ofBool (v.getLsbD 0)).setWidth 16 = v := by
    intro v hv
    obtain rfl | rfl : v = 0 ∨ v = 1 := by bv_omega
    · rfl
    · rfl
  cases r <;> simp only [legalPib, readPib, writePib, Bool.and_eq_true, decide_eq_true_eq, Bool.false_eq_true] at h ⊢
  case rxOnWhenIdle => exact bit v h
  case disableCCA => exact bit v h
  all_goals bv_omega

/-- What the flags of RX_ENABLE leave (R252). -/
theorem moveWindow_eq (stop start : Bool) (dur : Symbols) (s : State) :
    moveWindow stop start dur s = s.setWindow
      (if start then decide (dur ≠ 0) else if stop then false else s.windowActive)
      (if start then dur else if stop then 0 else s.windowTimer) := by
  cases stop <;> cases start <;> by_cases hd : dur = 0#24 <;>
    simp [moveWindow, windowAfterStart, windowAfterStop, hd, State.setWindow]

end Sys2Proof.Machine
end

