-- ==== Sys2Proof/Laws/Buffers.lean ====
section
/-! SUPPORT. Which operations reach the data-out buffer (spec/20_memory.md R60 (b), spec/42_codec.md R140). -/

namespace Sys2Proof.Machine

/-- The operation answers once, with an empty data-out buffer. -/
def AnswersNoBytes (s t : State) : Prop := ∃ handled value, t.responses = s.responses ++ [⟨handled, value, []⟩]

theorem refuse_noBytes (s : State) : AnswersNoBytes s (refuse s) := ⟨false, 0, rfl⟩

theorem respond_noBytes {s u : State} (h : u.responses = s.responses) (v : Word) : AnswersNoBytes s (u.respond v) :=
  ⟨true, v, by rw [State.respond_responses, h]⟩

theorem done_noBytes {s u : State} (h : u.responses = s.responses) : AnswersNoBytes s u.done := respond_noBytes h 0

theorem enqueue_responses (c : Params) (h l : Byte) (a : Bool) (s : State) :
    (enqueue c h l a s).responses = s.responses := by
  unfold enqueue
  split_ifs <;> rfl

theorem writeReg_responses (r : PibReg) (v : Half) (s : State) : (writeReg r v s).responses = s.responses := by
  unfold writeReg
  split_ifs <;> rfl

/-- R60 (b), as far as R140 leaves it: an operation other than HDR_ENCODE, FRAME_PARSE and FRAME_BUILD puts nothing in the
data-out buffer, in every state. -/
theorem exec_noBytes (i : Instr) (s : State) (he : ∀ code len, i ≠ .hdrEncode code len)
    (hp : ∀ dir ch, i ≠ .frameParse dir ch) (hb : ∀ code dir ch, i ≠ .frameBuild code dir ch) :
    ∃ t, exec i s = .next t ∧ AnswersNoBytes s t := by
  cases i with
  | hdrEncode code len => exact absurd rfl (he code len)
  | frameParse dir ch => exact absurd rfl (hp dir ch)
  | frameBuild code dir ch => exact absurd rfl (hb code dir ch)
  | hdrDecode b0 b1 b2 => exact ⟨_, rfl, true, _, rfl⟩
  | classify code ch => exact ⟨_, rfl, true, _, rfl⟩
  | init ih =>
    refine ⟨_, rfl, ?_⟩
    unfold init
    split_ifs <;> first | exact refuse_noBytes s | exact respond_noBytes rfl _
  | deinit =>
    refine ⟨_, rfl, ?_⟩
    unfold deinit
    split <;> first | exact refuse_noBytes s | exact respond_noBytes rfl _
  | reset =>
    refine ⟨_, rfl, ?_⟩
    unfold resetBlock
    split_ifs <;> first | exact refuse_noBytes s | exact done_noBytes rfl
  | pibSet attr value =>
    refine ⟨_, rfl, ?_⟩
    unfold pibSet
    repeat' split
    all_goals first | exact refuse_noBytes s | exact done_noBytes rfl | exact done_noBytes (writeReg_responses _ _ s)
  | pibGet attr =>
    refine ⟨_, rfl, ?_⟩
    unfold pibGet
    repeat' split
    all_goals first | exact refuse_noBytes s | exact done_noBytes rfl
  | dataReq handle len ind ack =>
    refine ⟨_, rfl, ?_⟩
    unfold dataReq
    split_ifs
    · exact done_noBytes rfl
    · exact done_noBytes (enqueue_responses _ _ _ _ s)
    · exact done_noBytes (startRequest_frame _ _ _ _ s).responses
    · exact done_noBytes rfl
    · exact refuse_noBytes s
  | tick n =>
    refine ⟨_, rfl, ?_⟩
    unfold tick
    split_ifs
    · exact done_noBytes (ticks_responses _ _ s)
    · exact refuse_noBytes s
  | ccaResult busy =>
    refine ⟨_, rfl, ?_⟩
    unfold ccaResult
    split_ifs
    · exact done_noBytes rfl
    · exact done_noBytes (startBackoff_frame _ (busyCca _ s)).responses
    · exact done_noBytes (transmit_frame s).responses
    · exact refuse_noBytes s
  | txDone =>
    refine ⟨_, rfl, ?_⟩
    unfold txDone
    split_ifs
    · exact done_noBytes rfl
    · exact done_noBytes (ackFail_frame _ s).responses
    · exact done_noBytes rfl
    · exact refuse_noBytes s
  | ackRx seq =>
    refine ⟨_, rfl, ?_⟩
    unfold ackRx
    split_ifs <;> first | exact refuse_noBytes s | exact done_noBytes rfl
  | indRelease handle =>
    refine ⟨_, rfl, ?_⟩
    unfold indRelease
    repeat' split
    all_goals first
      | exact refuse_noBytes s
      | exact respond_noBytes rfl _
      | exact respond_noBytes (startRequest_frame _ _ _ _ (s.setQueue _)).responses _
  | purge handle =>
    refine ⟨_, rfl, ?_⟩
    unfold purge
    repeat' split
    all_goals first | exact refuse_noBytes s | exact done_noBytes rfl
  | rxEnable stop start dur =>
    refine ⟨_, rfl, ?_⟩
    unfold rxEnable moveWindow windowAfterStart windowAfterStop
    repeat' split
    all_goals first | exact refuse_noBytes s | exact done_noBytes rfl
  | isRxEnabled =>
    refine ⟨_, rfl, ?_⟩
    unfold isRxEnabled
    split_ifs <;> first | exact refuse_noBytes s | exact respond_noBytes rfl _
  | startRx =>
    refine ⟨_, rfl, ?_⟩
    unfold startRx
    split_ifs <;> first | exact refuse_noBytes s | exact done_noBytes rfl

end Sys2Proof.Machine
end

