-- ==== Sys2Proof/Laws/PerInstr.lean ====
section
/-! SUPPORT. The family EncodingRow: every operation's word is an instance of the opcode-table row of its mnemonic, so that
its fixed bits are the row's (spec/30_encoding.md R83, R85). -/

namespace Sys2Proof.Laws

/-- The word of the operation has the fixed bits of a row of its mnemonic. -/
def EncodingRow.Statement (i : Instr) : Prop :=
  ∃ r ∈ opcodeTable, r.mnemonic = i.mnemonic ∧ r.covers (encode i) = true

/-- A row is found by its place in the table. -/
theorem encodingRow_of_row (i : Instr) (k : Nat) (r : OpRow) (hr : opcodeTable[k]? = some r)
    (hm : r.mnemonic = i.mnemonic) (hc : encode i &&& r.mask = r.value) : EncodingRow.Statement i :=
  ⟨r, List.mem_of_getElem? hr, hm, decide_eq_true hc⟩

theorem EncodingRow.init (ih : Bool) : EncodingRow.Statement (.init ih) :=
  encodingRow_of_row _ 0 _ rfl rfl (by cases ih <;> decide)

theorem EncodingRow.deinit : EncodingRow.Statement .deinit :=
  encodingRow_of_row _ 1 _ rfl rfl (by decide)

theorem EncodingRow.reset : EncodingRow.Statement .reset :=
  encodingRow_of_row _ 2 _ rfl rfl (by decide)

theorem EncodingRow.pibSet (attr : Byte) (value : Half) : EncodingRow.Statement (.pibSet attr value) :=
  encodingRow_of_row _ 3 _ rfl rfl (BitVec.eq_of_getLsbD_eq fun j hj => by
    interval_cases j <;> simp [encode, fieldAt])

theorem EncodingRow.pibGet (attr : Byte) : EncodingRow.Statement (.pibGet attr) :=
  encodingRow_of_row _ 4 _ rfl rfl (BitVec.eq_of_getLsbD_eq fun j hj => by
    interval_cases j <;> simp [encode, fieldAt])

theorem EncodingRow.hdrEncode (code : Byte) (len : Half) : EncodingRow.Statement (.hdrEncode code len) :=
  encodingRow_of_row _ 5 _ rfl rfl (BitVec.eq_of_getLsbD_eq fun j hj => by
    interval_cases j <;> simp [encode, fieldAt])

theorem EncodingRow.hdrDecode (b0 b1 b2 : Byte) : EncodingRow.Statement (.hdrDecode b0 b1 b2) :=
  encodingRow_of_row _ 6 _ rfl rfl (BitVec.eq_of_getLsbD_eq fun j hj => by
    interval_cases j <;> simp [encode, fieldAt])

theorem EncodingRow.frameParse (dir : Direction) (ch : Channel) : EncodingRow.Statement (.frameParse dir ch) :=
  encodingRow_of_row _ 7 _ rfl rfl (by cases dir <;> cases ch <;> decide)

theorem EncodingRow.frameBuild (code : Byte) (dir : Direction) (ch : Channel) : EncodingRow.Statement (.frameBuild code dir ch) :=
  encodingRow_of_row _ 8 _ rfl rfl (BitVec.eq_of_getLsbD_eq fun j hj => by
    interval_cases j <;> simp [encode, fieldAt, bitAt])

theorem EncodingRow.classify (code : Byte) (ch : Channel) : EncodingRow.Statement (.classify code ch) :=
  encodingRow_of_row _ 9 _ rfl rfl (BitVec.eq_of_getLsbD_eq fun j hj => by
    interval_cases j <;> simp [encode, fieldAt, bitAt])

theorem EncodingRow.dataReq (handle len : Byte) (ind ack : Bool) : EncodingRow.Statement (.dataReq handle len ind ack) :=
  encodingRow_of_row _ 10 _ rfl rfl (BitVec.eq_of_getLsbD_eq fun j hj => by
    interval_cases j <;> simp [encode, fieldAt, bitAt])

theorem EncodingRow.tick (n : Symbols) : EncodingRow.Statement (.tick n) :=
  encodingRow_of_row _ 11 _ rfl rfl (BitVec.eq_of_getLsbD_eq fun j hj => by
    interval_cases j <;> simp [encode, fieldAt])

theorem EncodingRow.ccaResult (busy : Bool) : EncodingRow.Statement (.ccaResult busy) :=
  encodingRow_of_row _ 12 _ rfl rfl (by cases busy <;> decide)

theorem EncodingRow.txDone : EncodingRow.Statement .txDone :=
  encodingRow_of_row _ 13 _ rfl rfl (by decide)

theorem EncodingRow.ackRx (seq : Byte) : EncodingRow.Statement (.ackRx seq) :=
  encodingRow_of_row _ 14 _ rfl rfl (BitVec.eq_of_getLsbD_eq fun j hj => by
    interval_cases j <;> simp [encode, fieldAt])

theorem EncodingRow.indRelease (handle : Byte) : EncodingRow.Statement (.indRelease handle) :=
  encodingRow_of_row _ 15 _ rfl rfl (BitVec.eq_of_getLsbD_eq fun j hj => by
    interval_cases j <;> simp [encode, fieldAt])

theorem EncodingRow.purge (handle : Byte) : EncodingRow.Statement (.purge handle) :=
  encodingRow_of_row _ 16 _ rfl rfl (BitVec.eq_of_getLsbD_eq fun j hj => by
    interval_cases j <;> simp [encode, fieldAt])

theorem EncodingRow.rxEnable (stop start : Bool) (dur : Symbols) : EncodingRow.Statement (.rxEnable stop start dur) :=
  encodingRow_of_row _ 17 _ rfl rfl (BitVec.eq_of_getLsbD_eq fun j hj => by
    interval_cases j <;> simp [encode, fieldAt, bitAt])

theorem EncodingRow.isRxEnabled : EncodingRow.Statement .isRxEnabled :=
  encodingRow_of_row _ 18 _ rfl rfl (by decide)

theorem EncodingRow.startRx : EncodingRow.Statement .startRx :=
  encodingRow_of_row _ 19 _ rfl rfl (by decide)

end Sys2Proof.Laws
end

