-- ==== Sys2Proof/Tests/Slice0.lean ====
section
/-! SUPPORT. Tests of the model, each a named theorem. Expected results come from spec/95_test_vectors.md (named at each
test) or from the rule named. The witnesses at the end show, for every statement that has hypotheses, a state and operands
that meet them. -/

namespace Sys2Proof.Tests

open Sys2Proof.Machine

/-! ## The test configuration of spec/95_test_vectors.md section 1 -/

/-- The PIB default T0. -/
def pibT0 : Pib :=
  { minBE := 3, maxBE := 5, maxCSMABackoffs := 4, maxFrameRetries := 3, ackWaitDuration := 54,
    maxFrameTotalWaitTime := 1000, transactionPersistenceTime := 500, dsn := 0x10, rxOnWhenIdle := false,
    disableCCA := false }

/-- A legal CHCI_CODES: the codes of each direction in their order. -/
def codes : ChciMessage → Byte
  | .dataRequest => 0x01
  | .purgeRequest => 0x01
  | .setRequest => 0x02
  | .getRequest => 0x03
  | .resetRequest => 0x04
  | .rxEnableRequest => 0x0C
  | .dataConfirm => 0x81
  | .purgeConfirm => 0x82
  | .setConfirm => 0x83
  | .getConfirm => 0x84
  | .resetConfirm => 0x85
  | .rxEnableConfirm => 0x91

/-- The test parameters, with one answer to every question of the oracle. -/
def params (draw : Nat) (initOk : Bool) : Params :=
  { maxFrameLen := 127, unitBackoffPeriod := 20, csmaAttemptsMode := .docLiteral, beGrowth := .increment,
    totalWaitStatus := .transactionExpired, indirectDepth := 2, maxChciPayload := 255, pibDefault := pibT0,
    chciCode := codes, backoffDraw := fun _ => draw, initDraw := fun _ => initOk }

/-- A block that is ON with the given PIB and nothing else going on. -/
def onWith (p : Pib) : State := { State.reset with life := .on, pib := p, events := [.radioRx false] }

/-- A request in the engine: handle 5, 10 octets, ACK wanted, under the snapshot of `p`. -/
def engWith (p : Pib) (st : EngState) : Engine :=
  { Engine.idle with
    st := st, handle := 5, len := 10, ackReq := true, sMinBE := p.minBE, sMaxBE := p.maxBE,
    sMaxCB := p.maxCSMABackoffs, sMaxFR := p.maxFrameRetries, sAckWait := p.ackWaitDuration,
    sDisableCCA := p.disableCCA, BE := p.minBE, totalTimer := p.maxFrameTotalWaitTime }

/-- The events one operation adds, and its response. -/
def outcome (s t : State) : List Event × Option Response := (t.events.drop s.events.length, t.responses.getLast?)

/-- A response (1, value) without data. -/
def handled (v : Word) : Option Response := some ⟨true, v, []⟩

/-- A response (0, 0). -/
def refused : Option Response := some ⟨false, 0, []⟩

/-- A frame that has its number, handed to the radio or waiting for its ACK. -/
def numbered (e : Engine) : Engine := { e with seq := 0x10, seqValid := true }

/-! ## Well-formedness: each check refuses an ill-formed term -/

theorem test_wf_accepts_long_buffer (d : List Byte) (h : d.length = 65538) :
    (⟨.frameParse .inbound .data, d⟩ : Operation).wf = true := by
  simp [Operation.wf, maxDataIn, Instr.hasDataIn, h]

theorem test_wf_refuses_overlong_buffer (d : List Byte) (h : d.length = 65539) :
    (⟨.frameParse .inbound .data, d⟩ : Operation).wf = false := by
  simp [Operation.wf, maxDataIn, h]

theorem test_wf_refuses_buffer_of_plain_operation : (⟨.txDone, [0]⟩ : Operation).wf = false := by decide

theorem test_pib_wf_accepts_T0 : pibT0.wf = true := by decide

theorem test_pib_wf_refuses_minBE_above_maxBE : { pibT0 with minBE := 6 }.wf = false := by decide

theorem test_pib_wf_refuses_maxBE_above_8 : { pibT0 with maxBE := 9 }.wf = false := by decide

theorem test_pib_wf_refuses_maxCSMABackoffs_above_5 : { pibT0 with maxCSMABackoffs := 6 }.wf = false := by decide

theorem test_params_wf_accepts : (params 0 true).wf = true := by decide

theorem test_params_wf_refuses_zero_period : { params 0 true with unitBackoffPeriod := 0 }.wf = false := by decide

theorem test_params_wf_refuses_zero_depth : { params 0 true with indirectDepth := 0 }.wf = false := by decide

theorem test_params_wf_refuses_illegal_default :
    { params 0 true with pibDefault := { pibT0 with maxBE := 9 } }.wf = false := by decide

/-- A reserved command code, and one event code for two messages (R95, R99). -/
theorem test_params_wf_refuses_illegal_codes :
    { params 0 true with chciCode := fun m => if m = ChciMessage.setRequest then 0x0D else codes m }.wf = false ∧
    { params 0 true with chciCode := fun m => if m = ChciMessage.setConfirm then 0x81 else codes m }.wf = false := by decide

/-- The parameters of the platform are legal, whatever the open values are (R7, R25). -/
theorem test_platform_wf : Config.platform.wf = true := by
  have h1 := Config.defaultMaxBE.isLt
  have h2 := Config.defaultMaxCSMABackoffs.isLt
  simp [Params.wf, Pib.wf, Config.platform, Config.pibDefault, chciCode_wf]
  omega

/-! ## Decoding: words written out field by field (spec/30_encoding.md R83, R85) -/

theorem test_decode_init : decode (0x01#8 ++ 0#23 ++ 1#1) = .ok (.init true) := by decide
theorem test_decode_deinit : decode (0x02#8 ++ 0#24) = .ok .deinit := by decide
theorem test_decode_reset : decode (0x03#8 ++ 0#24) = .ok .reset := by decide
theorem test_decode_pibSet : decode (0x04#8 ++ 0x57#8 ++ 0x0102#16) = .ok (.pibSet 0x57 0x0102) := by decide
theorem test_decode_pibGet : decode (0x05#8 ++ 0x4C#8 ++ 0#16) = .ok (.pibGet 0x4C) := by decide
theorem test_decode_hdrEncode : decode (0x10#8 ++ 0x81#8 ++ 0x0102#16) = .ok (.hdrEncode 0x81 0x0102) := by decide
theorem test_decode_hdrDecode : decode (0x11#8 ++ 0x81#8 ++ 0x02#8 ++ 0x01#8) = .ok (.hdrDecode 0x81 2 1) := by decide
theorem test_decode_frameParse : decode (0x12#8 ++ 0#22 ++ 1#1 ++ 0#1) = .ok (.frameParse .outbound .commandEvent) := by
  decide
theorem test_decode_frameBuild :
    decode (0x13#8 ++ 0x01#8 ++ 0#14 ++ 0#1 ++ 1#1) = .ok (.frameBuild 0x01 .inbound .data) := by decide
theorem test_decode_classify : decode (0x14#8 ++ 0x0D#8 ++ 0#15 ++ 1#1) = .ok (.classify 0x0D .data) := by decide
theorem test_decode_dataReq :
    decode (0x20#8 ++ 7#8 ++ 20#8 ++ 0#6 ++ 0#1 ++ 1#1) = .ok (.dataReq 7 20 false true) := by decide
theorem test_decode_tick : decode (0x21#8 ++ 0x123456#24) = .ok (.tick 0x123456) := by decide
theorem test_decode_ccaResult : decode (0x22#8 ++ 0#23 ++ 1#1) = .ok (.ccaResult true) := by decide
theorem test_decode_txDone : decode (0x23#8 ++ 0#24) = .ok .txDone := by decide
theorem test_decode_ackRx : decode (0x24#8 ++ 0#16 ++ 0xFE#8) = .ok (.ackRx 0xFE) := by decide
theorem test_decode_indRelease : decode (0x30#8 ++ 4#8 ++ 0#16) = .ok (.indRelease 4) := by decide
theorem test_decode_purge : decode (0x31#8 ++ 5#8 ++ 0#16) = .ok (.purge 5) := by decide
theorem test_decode_rxEnable : decode (0b010000#6 ++ 1#1 ++ 0#1 ++ 3#24) = .ok (.rxEnable true false 3) := by decide
theorem test_decode_isRxEnabled : decode (0x48#8 ++ 0#24) = .ok .isRxEnabled := by decide
theorem test_decode_startRx : decode (0x49#8 ++ 0#24) = .ok .startRx := by decide

/-- The illegal words of vectors I-a, E-l and L-f. -/
theorem test_decode_illegal :
    [0x00000000#32, 0x06000000#32, 0x15000000#32, 0x4A000000#32, 0xFF000000#32].map decode =
      List.replicate 5 (.error .unassignedCode) ∧
    [0x02000001#32, 0x22000002#32, 0x20000004#32, 0x23000001#32, 0x24000100#32, 0x054C0001#32].map decode =
      List.replicate 6 (.error .reservedBitSet) := by decide

/-- R92: a line of assembly, its fields in any order; a field that is too wide, unknown or repeated is no line. -/
theorem test_assemble :
    assemble "DATA_REQ" [("ack", 1), ("handle", 7), ("len", 20)] = some 0x20071401#32 ∧
    assemble "CCA_RESULT" [("busy", 2)] = none ∧ assemble "TICK" [("x", 1)] = none ∧
    assemble "TICK" [("n", 1), ("n", 1)] = none := by decide

/-- The interface functions: the table word through the byte transport, and the step that takes it. -/
theorem test_decodeTableWord : decodeTableWord 32 0x20071401 = some (.dataReq 7 20 false true) := by decide

theorem test_withFetchWord_runs :
    step (State.reset.withFetchWord 32 0x10810102) = exec (.hdrEncode 0x81 0x0102) State.reset := rfl

/-! ## Lifecycle and PIB (vectors of section 3.1) -/

/-- P1 step 1. -/
theorem test_init_success :
    outcome State.reset (init (params 0 true) State.reset) = ([.radioRx false], handled 1) ∧
      (init (params 0 true) State.reset).pib = pibT0 := by decide

/-- L-b step 1. -/
theorem test_init_failure :
    outcome State.reset (init (params 0 false) State.reset) = ([], handled 0) ∧
      (init (params 0 false) State.reset).life = .failed := by decide

/-- L-e step 2. -/
theorem test_deinit_clears_a_request :
    deinit { onWith pibT0 with eng := engWith pibT0 .backoff, radioRx := true } =
      { State.reset with events := [.radioRx false], responses := [⟨true, 0, []⟩] } := by decide

/-- L-b step 3. -/
theorem test_deinit_refused_when_failed :
    outcome State.reset (deinit { State.reset with life := .failed }) = ([], refused) := by decide

/-- L-d step 3. -/
theorem test_reset_in_mid_request :
    let c := { params 0 true with pibDefault := { pibT0 with rxOnWhenIdle := true } }
    let s := { onWith pibT0 with eng := engWith pibT0 .backoff, queue := [⟨3, 4, false, 500⟩] }
    outcome s (resetBlock c s) = ([.radioRx true, .confReset .success], handled 0) ∧
      (resetBlock c s).eng = Engine.idle ∧ (resetBlock c s).queue = [] := by decide

/-- L-a step 4. -/
theorem test_reset_refused_when_off : outcome State.reset (resetBlock (params 0 true) State.reset) = ([], refused) := by
  decide

/-- L-f steps 1 to 16 and L-g step 4, by their bounds. -/
theorem test_pibSet_bounds :
    ([(0x4F, 5), (0x4F, 6), (0x57, 2), (0x57, 8), (0x57, 9), (0x4E, 5), (0x4E, 6), (0x59, 7), (0x59, 8), (0x52, 2),
      (0x80, 2), (0x4C, 0x55), (0x41, 1)] : List (Byte × Half)).map
        (fun p => (pibSet p.1 p.2 (onWith pibT0)).events.drop 1) =
      [[.confSet 0x4F .success], [.confSet 0x4F .invalidParameter], [.confSet 0x57 .invalidParameter],
       [.confSet 0x57 .success], [.confSet 0x57 .invalidParameter], [.confSet 0x4E .success],
       [.confSet 0x4E .invalidParameter], [.confSet 0x59 .success], [.confSet 0x59 .invalidParameter],
       [.confSet 0x52 .invalidParameter], [.confSet 0x80 .invalidParameter], [.confSet 0x4C .readOnly],
       [.confSet 0x41 .unsupportedAttribute]] := by decide

/-- P4 step 5: the receiver is driven before the confirm. -/
theorem test_pibSet_rxOnWhenIdle :
    (pibSet 0x52 1 (onWith pibT0)).events.drop 1 = [.radioRx true, .confSet 0x52 .success] ∧
      (pibSet 0x52 1 (onWith pibT0)).radioRx = true := by decide

/-- L-f steps 18 to 20. -/
theorem test_pibGet_values :
    ([0x41, 0x57, 0x4C] : List Byte).map (fun a => (pibGet a (onWith pibT0)).events.drop 1) =
      [[.confGet 0x41 .unsupportedAttribute 0], [.confGet 0x57 .success 5], [.confGet 0x4C .success 0x10]] := by decide

/-! ## Codec (section 3.2) -/

/-- Row 2 and program P5 step 1. -/
theorem test_hdrEncode :
    hdrEncode 0x81 0xFFFF = ⟨true, 0x00FFFF81#32, [0x81, 0xFF, 0xFF]⟩ ∧
      hdrEncode 0x81 0x0102 = ⟨true, 0x00010281#32, [0x81, 0x02, 0x01]⟩ := by decide

/-- Rows 3 and 4. -/
theorem test_hdrDecode :
    hdrDecode 0x01 0xFF 0x00 = ⟨true, 0x000100FF#32, []⟩ ∧ hdrDecode 0x01 0x00 0x01 = ⟨true, 0x00010100#32, []⟩ := by
  decide

/-- Rows 5 to 15. -/
theorem test_classify_commandEvent :
    ([0x00, 0x01, 0x0C, 0x0D, 0x0F, 0x10, 0x80, 0x81, 0x91, 0x92, 0xFF] : List Byte).map
      (fun b => (classify b .commandEvent).value) = [0, 1, 1, 2, 2, 0, 0, 3, 3, 4, 4] := by decide

/-- Rows 16 to 21. -/
theorem test_classify_data :
    ([0x00, 0x01, 0x02, 0x80, 0x81, 0x82] : List Byte).map (fun b => (classify b .data).value) = [0, 5, 0, 0, 6, 0] := by
  decide

/-- Rows 23 to 30. -/
theorem test_frameParse :
    frameParse (params 0 true) .inbound .commandEvent [] = ⟨true, 0x01000000#32, []⟩ ∧
    frameParse (params 0 true) .inbound .commandEvent [0x05, 0, 0, 0xEE] = ⟨true, 0x03050000#32, []⟩ ∧
    frameParse (params 0 true) .outbound .commandEvent [0x05, 0, 0] = ⟨true, 0x04050000#32, []⟩ ∧
    frameParse (params 0 true) .outbound .data [0x81, 1, 0, 0x7E] = ⟨true, 0x00810001#32, [0x7E]⟩ ∧
    frameParse (params 0 true) .inbound .commandEvent [0x0D, 0, 1] = ⟨true, 0x020D0100#32, []⟩ := by decide

/-- Rows 33 and 35. -/
theorem test_frameBuild :
    frameBuild (params 0 true) 0x0D .inbound .commandEvent [] = ⟨true, 0x040D0000#32, []⟩ ∧
      frameBuild (params 0 true) 0x81 .outbound .data [0x7E] = ⟨true, 0x00810001#32, [0x81, 1, 0, 0x7E]⟩ := by decide

/-- The last long-buffer case: 256 bytes against MAX_CHCI_PAYLOAD = 255. -/
theorem test_frameBuild_too_long (d : List Byte) (h : d.length = 256) :
    frameBuild (params 0 true) 0x01 .inbound .commandEvent d = ⟨true, 0x02010100#32, []⟩ := by
  simp [frameBuild, params, h]
  decide

/-! ## Engine (section 3.3 and programs P1, P2) -/

/-- E-b step 1: r = 1. -/
theorem test_dataReq_backoff :
    let t := dataReq (params 1 true) 2 5 false false (onWith pibT0)
    t.eng.st = .backoff ∧ t.eng.backoffTimer = 20 ∧ t.eng.totalTimer = 1000 ∧ t.events.drop 1 = [] := by decide

/-- E-a steps 1 and 2, E-c, E-d, Q-a and P3 step 4, by the confirm. -/
theorem test_dataReq_turned_away :
    let p (h l : Byte) (ind : Bool) (s : State) := (dataReq (params 0 true) h l ind false s).events.drop 1
    p 3 128 false (onWith { pibT0 with disableCCA := true }) = [.confData 3 .invalidParameter] ∧
    p 3 127 false (onWith { pibT0 with disableCCA := true }) = [.radioTx 0x10 3 127 false] ∧
    p 6 10 false (onWith { pibT0 with maxFrameTotalWaitTime := 0 }) = [.confData 6 .transactionExpired] ∧
    p 6 10 false (onWith { pibT0 with maxCSMABackoffs := 0 }) = [.confData 6 .channelAccessFailure] ∧
    p 6 10 true (onWith { pibT0 with transactionPersistenceTime := 0 }) = [.confData 6 .transactionExpired] ∧
    p 9 1 true { onWith pibT0 with queue := [⟨5, 8, false, 50⟩, ⟨6, 9, false, 50⟩] } =
      [.confData 9 .transactionOverflow] := by decide

/-- P1 step 3: the backoff timer at its last tick; and E-j step 3: the total timer first. -/
theorem test_tick_backoff_and_total :
    let s := { onWith pibT0 with eng := { engWith pibT0 .backoff with backoffTimer := 1 } }
    let s' := { s with eng := { s.eng with totalTimer := 1 } }
    (tick (params 0 true) 1 s).events.drop 1 = [.radioCca] ∧ (tick (params 0 true) 1 s).eng.totalTimer = 999 ∧
      (tick (params 0 true) 1 s').events.drop 1 = [.confData 5 .transactionExpired] := by decide

/-- Q-c step 3 and P4 step 6, in one tick: held entries oldest first, then the window. -/
theorem test_tick_queue_and_window :
    let s := { onWith pibT0 with
      queue := [⟨1, 1, false, 1⟩, ⟨2, 1, false, 1⟩, ⟨3, 1, false, 2⟩], windowActive := true, windowTimer := 1 }
    let t := tick (params 0 true) 1 s
    t.events.drop 1 = [.confData 1 .transactionExpired, .confData 2 .transactionExpired, .radioRx false] ∧
      t.queue = [⟨3, 1, false, 1⟩] ∧ t.windowActive = false := by decide

/-- R183's example: NB = 0, BE = 2, sMaxBE = 4, sMaxCB = 2, r = 3. -/
theorem test_ccaResult_busy :
    let p := { pibT0 with minBE := 2, maxBE := 4, maxCSMABackoffs := 2 }
    let t := ccaResult (params 3 true) true { onWith p with eng := engWith p .ccaWait }
    t.eng.NB = 1 ∧ t.eng.BE = 3 ∧ t.eng.st = .backoff ∧ t.eng.backoffTimer = 60 := by decide

/-- The alternatives of R174 and R175: E-d2 step 2 and E-e2 step 2. -/
theorem test_ccaResult_alternatives :
    let c := { params 0 true with csmaAttemptsMode := .nbExclusive, beGrowth := .double }
    let p := { pibT0 with minBE := 2, maxBE := 8, maxCSMABackoffs := 0 }
    let q := { pibT0 with minBE := 2, maxBE := 8, maxCSMABackoffs := 3 }
    (ccaResult c true { onWith p with eng := engWith p .ccaWait }).events.drop 1 = [.confData 5 .channelAccessFailure] ∧
      (ccaResult c true { onWith q with eng := engWith q .ccaWait }).eng.BE = 4 := by decide

/-- R184's example, and E-f step 2: a zero ACK window retries at once with the same number. -/
theorem test_txDone :
    let p := { pibT0 with disableCCA := true, ackWaitDuration := 0 }
    (txDone (params 0 true) { onWith pibT0 with eng := numbered (engWith pibT0 .txWait) }).eng.ackTimer = 54 ∧
      (txDone (params 0 true) { onWith p with eng := numbered (engWith p .txWait) }).events.drop 1 =
        [.radioTx 0x10 5 10 true] := by decide

/-- P2 step 5 and P1 step 9. -/
theorem test_ackRx :
    let s := { onWith pibT0 with eng := numbered (engWith pibT0 .ackWait) }
    outcome s (ackRx 0xFE s) = ([], refused) ∧ outcome s (ackRx 0x10 s) = ([.confData 5 .success], handled 0) := by decide

/-! ## Queue and scheduler (sections 3.4 and 3.5, programs P3 and P4) -/

/-- R222's example. -/
theorem test_indRelease :
    let s := { onWith { pibT0 with disableCCA := true, dsn := 0x20 } with queue := [⟨4, 3, false, 40⟩] }
    let t := indRelease (params 0 true) 4 s
    outcome s t = ([.radioTx 0x20 4 3 false], handled 0) ∧ t.queue = [] ∧ t.pib.dsn = 0x21 := by decide

/-- P3 steps 10 and 14. -/
theorem test_indRelease_busy_and_unknown :
    let s := { onWith pibT0 with queue := [⟨6, 9, false, 40⟩], eng := engWith pibT0 .txWait }
    outcome s (indRelease (params 0 true) 6 s) = ([], handled 2) ∧
      outcome s (indRelease (params 0 true) 7 s) = ([], handled 1) := by decide

/-- Q-b: the oldest of two entries with one handle; and an unknown handle (Q-e step 1). -/
theorem test_purge :
    let s := { onWith pibT0 with queue := [⟨5, 1, false, 8⟩, ⟨5, 2, false, 10⟩] }
    (purge 5 s).queue = [⟨5, 2, false, 10⟩] ∧ outcome s (purge 99 s) = ([.confPurge 99 .invalidHandle], handled 0) := by
  decide

/-- P4 steps 3 and 10. -/
theorem test_rxEnable_start_and_stop :
    outcome (onWith pibT0) (rxEnable false true 5 (onWith pibT0)) = ([.radioRx true, .confRxEnable .success], handled 0) ∧
      outcome (onWith pibT0) (rxEnable true false 0 (onWith pibT0)) = ([.confRxEnable .success], handled 0) := by decide

/-- P4 step 12 and X-a step 4: a restart of length 0 closes; a restart of an open window drives nothing. -/
theorem test_rxEnable_restart :
    let s := { onWith pibT0 with windowActive := true, windowTimer := 3, radioRx := true }
    (rxEnable true true 0 s).events.drop 1 = [.radioRx false, .confRxEnable .success] ∧
      (rxEnable true true 16 s).events.drop 1 = [.confRxEnable .success] ∧
      (rxEnable true true 16 s).windowTimer = 16 := by decide

/-- P4 steps 2 and 4. -/
theorem test_isRxEnabled :
    (isRxEnabled (onWith pibT0)).responses = [⟨true, 0, []⟩] ∧
      (isRxEnabled { onWith pibT0 with windowActive := true, windowTimer := 5 }).responses = [⟨true, 1, []⟩] := by decide

/-- P4 step 13. -/
theorem test_startRx : outcome (onWith pibT0) (startRx (onWith pibT0)) = ([.radioRx false], handled 0) := by decide

/-! ## Witnesses: for every statement with hypotheses, a state and operands that meet them -/

/-- The word presented first at the port of a state. -/
def withOp (s : State) (w : Word) : State := { s with port := [⟨.host, w, []⟩] }

/-- A request in the engine with no octets, so that its length is within every MAX_FRAME_LEN. -/
def engZero (st : EngState) : Engine := { numbered (engWith pibT0 st) with len := 0 }

/-- ON, a frame waiting for its ACK, one entry held, an open window: every timer at 1. -/
def busy : State :=
  { onWith pibT0 with
    eng := { engZero .ackWait with ackTimer := 1, totalTimer := 1 }, queue := [⟨5, 0, false, 1⟩], windowActive := true,
    windowTimer := 1, radioRx := true, events := [.radioRx true] }

/-- ON with one held entry of handle 5. -/
def holding : State := { onWith pibT0 with queue := [⟨6, 0, true, 9⟩, ⟨5, 0, false, 9⟩] }

theorem witness_EncodeOfDecodeIsTheWord : decode 0x21FFFFFF#32 = .ok (.tick 0xFFFFFF) := by decide

theorem witness_LegalWordsAreTheTableRows :
    decode 0x43FFFFFF#32 = .ok (.rxEnable true true 0xFFFFFF) ∧ ∃ r ∈ opcodeTable, r.covers 0x43FFFFFF#32 = true := by
  decide

theorem witness_StepRunsTheDecodedOperation :
    (withOp State.reset 0x49000000#32).port = ⟨.host, 0x49000000#32, []⟩ :: [] ∧ decode 0x49000000#32 = .ok .startRx := by
  decide

theorem witness_IllegalWordsAreRefused :
    (withOp (onWith pibT0) 0x01000002#32).port = ⟨.host, 0x01000002#32, []⟩ :: [] ∧
    decode 0x01000002#32 = .error .reservedBitSet ∧
    ([0x00#8, 0x06#8, 0x0F#8, 0x15#8, 0x1F#8, 0x25#8, 0x2F#8, 0x32#8, 0x3F#8, 0x44#8, 0x47#8, 0x4A#8, 0xFF#8].map
      (fun b => decode (b ++ 0#24)) = List.replicate 13 (.error .unassignedCode)) := by decide

theorem witness_RefusalTable :
    (onWith pibT0).life ≠ .off ∧ { State.reset with life := .failed }.life = .failed ∧ State.reset.life ≠ .on ∧
    isCodec .startRx = false ∧ (onWith pibT0).eng.st ≠ .ccaWait ∧ (onWith pibT0).eng.st ≠ .txWait ∧
    (onWith pibT0).eng.st ≠ .ackWait ∧ (0xFE#8 : Byte) ≠ busy.eng.seq ∧ isCodec (.hdrDecode 0 0 0) = true := by decide

theorem witness_OneResponseAndAppendedEvents : ∃ t, step (withOp (onWith pibT0) 0x49000000#32) = .next t := ⟨_, rfl⟩

theorem witness_InitFromOff : State.reset.life = .off := rfl

theorem witness_DeinitTearsDown : busy.life = .on ∧ State.reset.life = .off := ⟨rfl, rfl⟩

theorem witness_ResetEndsAllActivity : busy.life = .on := rfl

theorem witness_OnlyInitAndDeinitWriteLife :
    (∃ t, exec .reset busy = .next t) ∧ (∀ ih, Instr.reset ≠ .init ih) ∧ Instr.reset ≠ .deinit := by
  refine ⟨⟨_, rfl⟩, ?_, ?_⟩ <;> decide

theorem witness_FailedInitIsTerminal :
    { State.reset with life := .failed }.life = .failed ∧ isCodec (.init true) = false ∧
    ∃ t, step (withOp { State.reset with life := .failed } 0x01000001#32) = .next t := ⟨rfl, rfl, _, rfl⟩

/-- Each bound of R116 at its last legal value. -/
theorem witness_PibSetWritesALegalValue :
    (onWith pibT0).life = .on ∧ (5#16).toNat ≤ pibT0.maxBE.toNat ∧ pibT0.minBE.toNat ≤ (3#16).toNat ∧
    (8#16).toNat ≤ 8 ∧ (5#16).toNat ≤ 5 ∧ (7#16).toNat ≤ 7 := by decide

/-- Each bound of R116 at its first illegal value. -/
theorem witness_PibSetReportsTheFirstFailedCheck :
    (onWith pibT0).life = .on ∧
    (0x41#8 : Byte) ∉ [0x40#8, 0x4C#8, 0x4E#8, 0x4F#8, 0x52#8, 0x55#8, 0x57#8, 0x58#8, 0x59#8, 0x80#8] ∧
    pibT0.maxBE.toNat < (6#16).toNat ∧ (2#16).toNat < pibT0.minBE.toNat ∧ 8 < (9#16).toNat ∧ 5 < (6#16).toNat ∧
    7 < (8#16).toNat ∧ 1 < (2#16).toNat := by decide

theorem witness_PibGetReportsTheRegister : (onWith pibT0).life = .on := rfl

theorem witness_PibReadAfterWrite :
    (∃ t, (onWith pibT0).life = .on ∧ exec (.pibSet 0x57 8) (onWith pibT0) = .next t ∧
      t.events = (onWith pibT0).events ++ [.confSet 0x57 .success] ∧ attrReg 0x57 = some .maxBE ∧ t.life = .on ∧
      readPib t.pib .maxBE = 8) ∧
    (∃ t, exec (.pibSet 0x57 8) (onWith pibT0) = .next t ∧ readPib t.pib .maxBE ≠ readPib pibT0 .maxBE) ∧
    (∃ t, exec (.ccaResult false) { onWith pibT0 with eng := engWith pibT0 .ccaWait } = .next t ∧
      t.pib.dsn ≠ pibT0.dsn) :=
  ⟨⟨_, rfl, rfl, by decide, rfl, rfl, by decide⟩, ⟨_, rfl, by decide⟩, ⟨_, rfl, by decide⟩⟩

/-- The pair (6, 6) above `maxBE` = 5, and (2, 2) below `minBE` = 3. -/
theorem witness_BackoffBoundsMoveInTheRightOrder :
    (onWith pibT0).life = .on ∧ (onWith pibT0).pib.wf = true ∧ pibT0.maxBE.toNat < (6#4).toNat ∧ (6#4).toNat ≤ 8 ∧
    (2#4).toNat < pibT0.minBE.toNat := by decide

/-- Two bytes, and the shortest complete message. -/
theorem witness_FrameParseChecksInOrder :
    { State.reset with dataIn := [0x05, 0] }.dataIn.length < 3 ∧
    { State.reset with dataIn := [0x05, 0, 0] }.dataIn = 0x05#8 :: 0#8 :: 0#8 :: [] := by decide

/-- An empty payload is within every MAX_CHCI_PAYLOAD. -/
theorem witness_CodecRoundTrips :
    ∃ (t u : State) (r : Response), exec (.frameBuild 0x81 .outbound .data) State.reset = .next t ∧
      t.responses = State.reset.responses ++ [r] ∧ r.value.extractLsb' 24 8 = 0#8 ∧ u.dataIn = r.dataOut :=
  ⟨_, { State.reset with dataIn := [0x81, 0, 0] }, ⟨true, 0x00810000#32, [0x81, 0, 0]⟩, rfl,
    by simp [State.answer, State.reset, frameBuild]; decide, by decide, rfl⟩

theorem witness_CodecIsStateless : isCodec (.frameParse .inbound .data) = true := rfl

theorem witness_ReadingOperationsAreIdempotent :
    isCodec (.classify 0 .data) = true ∧ (∃ attr, Instr.pibGet 0x4C = .pibGet attr) ∧ (onWith pibT0).life = .on :=
  ⟨rfl, ⟨_, rfl⟩, rfl⟩

/-- A full queue, a zero persistence time, a free place, and a busy engine. -/
theorem witness_DataRequestHeldOrBusy :
    { onWith pibT0 with queue := List.replicate Config.platform.indirectDepth default }.queue.length =
      Config.platform.indirectDepth ∧
    (onWith { pibT0 with transactionPersistenceTime := 0 }).pib.transactionPersistenceTime = 0 ∧
    (onWith pibT0).queue.length ≠ Config.platform.indirectDepth ∧ busy.eng.st ≠ .idle ∧ busy.life = .on := by
  refine ⟨List.length_replicate, rfl, ?_, by decide, rfl⟩
  simp [onWith, State.reset, Config.platform]

/-- The request of no octets, and each PIB that decides its fate. -/
theorem witness_DataRequestAccepted :
    (onWith pibT0).life = .on ∧ (onWith pibT0).eng.st = .idle ∧
    ¬ Config.maxFrameLen.toNat < (0#8).toNat ∧ { pibT0 with maxFrameTotalWaitTime := 0 }.maxFrameTotalWaitTime = 0 ∧
    { pibT0 with disableCCA := true }.disableCCA = true ∧ { pibT0 with maxCSMABackoffs := 0 }.maxCSMABackoffs = 0 := by
  refine ⟨rfl, rfl, Nat.not_lt_zero _, rfl, rfl, rfl⟩

/-- A first transmission and a retransmission. -/
theorem witness_ClearChannelTransmits :
    { onWith pibT0 with eng := engWith pibT0 .ccaWait }.eng.st = .ccaWait ∧ (engWith pibT0 .ccaWait).seqValid = false ∧
    (engZero .ccaWait).st = .ccaWait ∧ (engZero .ccaWait).seqValid = true ∧ (onWith pibT0).life = .on := by decide

/-- The last busy result of a cycle (NB = 3 of 4) and one before it. -/
theorem witness_BusyChannelBacksOffOrFails :
    { engZero .ccaWait with NB := 3 }.st = .ccaWait ∧ { engZero .ccaWait with NB := 3 }.NB.toNat < 7 ∧
    { engZero .ccaWait with NB := 3 }.sMaxCB.toNat ≤ { engZero .ccaWait with NB := 3 }.NB.toNat + 1 ∧
    ¬ { engZero .ccaWait with NB := 2 }.sMaxCB.toNat ≤ { engZero .ccaWait with NB := 2 }.NB.toNat + 1 ∧
    (onWith pibT0).life = .on := by decide

theorem witness_BackoffExponentAfterBusyResults :
    (engZero .ccaWait).BE = (engZero .ccaWait).sMinBE ∧
    (engZero .ccaWait).sMinBE.toNat ≤ (engZero .ccaWait).sMaxBE.toNat ∧ (params 0 true).beGrowth = .increment ∧
    { params 0 true with beGrowth := .double }.beGrowth = .double := by decide

theorem witness_TransmitDoneSucceedsOrWaits :
    { engZero .txWait with ackReq := false }.ackReq = false ∧ (engZero .txWait).ackReq = true ∧
    (engZero .txWait).sAckWait ≠ 0 ∧ (engZero .txWait).st = .txWait ∧ (onWith pibT0).life = .on := by decide

/-- No retry left; a retry without CCA; a retry with no CCA allowed; a retry with a backoff. -/
theorem witness_ZeroAckWindowFailsTheAttempt :
    let e := { engZero .txWait with sAckWait := 0 }
    (onWith pibT0).life = .on ∧ e.st = .txWait ∧ e.ackReq = true ∧ e.sAckWait = 0 ∧ e.seqValid = true ∧
    { e with retries := 3 }.sMaxFR.toNat ≤ { e with retries := 3 }.retries.toNat ∧ ¬ e.sMaxFR.toNat ≤ e.retries.toNat ∧
    { e with sDisableCCA := true }.sDisableCCA = true ∧ { e with sMaxCB := 0 }.sMaxCB = 0 ∧ e.sMaxCB ≠ 0 := by decide

theorem witness_MatchingAckSucceeds : busy.life = .on ∧ busy.eng.st = .ackWait := ⟨rfl, rfl⟩

/-- One tick before each expiry: in a backoff, in an ACK wait with an entry held and a window open, and in IDLE. -/
theorem witness_QuietTicksOnlyCountDown :
    let b := { engZero .backoff with backoffTimer := 20 }
    let a := { engZero .ackWait with ackTimer := 54 }
    (onWith pibT0).life = .on ∧ (19#24).toNat < b.totalTimer.toNat ∧ (19#24).toNat < b.backoffTimer ∧ b.st = .backoff ∧
    (53#24).toNat < a.totalTimer.toNat ∧ (53#24).toNat < a.ackTimer.toNat ∧ a.st = .ackWait ∧
    (∀ e ∈ holding.queue, (8#24).toNat < e.persist.toNat) ∧ (53#24).toNat < (54#24).toNat ∧ holding.eng.st = .idle := by
  decide

theorem witness_TicksCompose :
    (onWith pibT0).life = .on ∧ (1#24).toNat + (0xFFFFFE#24).toNat < 2 ^ 24 ∧
    ∃ t u v, exec (.tick 1) (onWith pibT0) = .next t ∧ exec (.tick 0xFFFFFE) t = .next u ∧
      exec (.tick (1 + 0xFFFFFE)) (onWith pibT0) = .next v := ⟨rfl, by decide, _, _, _, rfl, rfl, rfl⟩

/-- An entry and the window one tick above the backoff; and neither of them. -/
theorem witness_BackoffExpiryAsksForTheCca :
    let s := { onWith pibT0 with
      eng := { engZero .backoff with backoffTimer := 20 }, queue := [⟨6, 0, true, 21⟩], windowActive := true,
      windowTimer := 21 }
    s.life = .on ∧ s.eng.st = .backoff ∧ 1 ≤ (20#24).toNat ∧ (20#24).toNat = s.eng.backoffTimer ∧
    (20#24).toNat < s.eng.totalTimer.toNat ∧ (∀ e ∈ s.queue, (20#24).toNat < e.persist.toNat) ∧
    (s.windowActive = true → (20#24).toNat < s.windowTimer.toNat) ∧
    (∀ e ∈ (onWith pibT0).queue, (20#24).toNat < e.persist.toNat) ∧ (onWith pibT0).windowActive = false := by decide

/-- The four ends of a failed attempt, as in the witness for the zero ACK window, an entry and the window one tick above
the ACK wait. -/
theorem witness_AckExpiryFailsTheAttempt :
    let e := { engZero .ackWait with ackTimer := 54 }
    let s := { onWith pibT0 with eng := e, queue := [⟨6, 0, true, 55⟩], windowActive := true, windowTimer := 55 }
    s.life = .on ∧ e.st = .ackWait ∧ 1 ≤ (54#24).toNat ∧ (54#24).toNat = e.ackTimer.toNat ∧
    (54#24).toNat < e.totalTimer.toNat ∧ (∀ e ∈ s.queue, (54#24).toNat < e.persist.toNat) ∧
    (s.windowActive = true → (54#24).toNat < s.windowTimer.toNat) ∧ e.seqValid = true ∧
    { e with retries := 3 }.sMaxFR.toNat ≤ { e with retries := 3 }.retries.toNat ∧ ¬ e.sMaxFR.toNat ≤ e.retries.toNat ∧
    { e with sDisableCCA := true }.sDisableCCA = true ∧ { e with sMaxCB := 0 }.sMaxCB = 0 ∧ e.sMaxCB ≠ 0 := by decide

theorem witness_ExpiriesOfOneTickInOrder :
    busy.life = .on ∧ busy.eng.st ≠ .idle ∧ busy.eng.totalTimer = 1 ∧ (∀ e ∈ busy.queue, e.persist = 1) ∧
    busy.windowActive = true ∧ busy.windowTimer = 1 := by decide

theorem witness_RequestEndsWithinItsTotalTime :
    busy.life = .on ∧ busy.eng.st ≠ .idle ∧ 1 ≤ busy.eng.totalTimer.toNat ∧
    busy.eng.totalTimer.toNat ≤ (1#24).toNat ∧ ∃ t, exec (.tick 1) busy = .next t :=
  ⟨rfl, by decide, by decide, by decide, _, rfl⟩

/-- The last tick of both entries with no request, and the tick in which an entry and the request end. -/
theorem witness_HeldEntriesCountDown :
    (holding.life = .on ∧ (∀ e ∈ holding.queue, 1 ≤ e.persist.toNat) ∧ holding.eng.st = .idle ∧
      expiryConfirms holding.queue 9 = [.confData 6 .transactionExpired, .confData 5 .transactionExpired] ∧
      ∃ t, exec (.tick 9) holding = .next t) ∧
    (busy.life = .on ∧ (∀ e ∈ busy.queue, 1 ≤ e.persist.toNat) ∧ busy.eng.st ≠ .idle ∧
      ∃ t, exec (.tick 1) busy = .next t) :=
  ⟨⟨rfl, by decide, rfl, by decide, _, rfl⟩, rfl, by decide, by decide, _, rfl⟩

theorem witness_WindowCountsDownAndCloses :
    busy.life = .on ∧ (busy.windowActive = true ↔ busy.windowTimer ≠ 0) ∧ ∃ t, exec (.tick 1) busy = .next t :=
  ⟨rfl, by decide, _, rfl⟩

/-- Not held; held and the engine busy; held and the engine idle. -/
theorem witness_ReleaseOfAHeldRequest :
    holding.life = .on ∧ findHandle holding.queue 7 = none ∧ findHandle busy.queue 5 = some 0 ∧ busy.eng.st ≠ .idle ∧
    findHandle holding.queue 5 = some 1 ∧ holding.queue[1]? = some ⟨5, 0, false, 9⟩ ∧ holding.eng.st = .idle ∧
    (0#8).toNat ≤ Config.maxFrameLen.toNat := by
  refine ⟨rfl, by decide, by decide, by decide, by decide, rfl, rfl, Nat.zero_le _⟩

theorem witness_ReleaseTransmitsWithCcaDisabled :
    let s := { holding with pib := { pibT0 with disableCCA := true } }
    s.life = .on ∧ s.eng = Engine.idle ∧ findHandle s.queue 5 = some 1 ∧ s.queue[1]? = some ⟨5, 0, false, 9⟩ ∧
    s.pib.disableCCA = true ∧ s.pib.maxFrameTotalWaitTime ≠ 0 := by decide

theorem witness_PurgeRemovesTheOldestEntry : holding.life = .on ∧ findHandle holding.queue 5 = some 1 := by decide

theorem witness_PurgeOfAnUnknownHandle : holding.life = .on ∧ findHandle holding.queue 99 = none := by decide

theorem witness_RxEnableMovesTheWindow : busy.life = .on := rfl

theorem witness_ReceiverIsOnWhenEitherInputIs : busy.life = .on := rfl

theorem witness_StartRxDrivesTheDecision : busy.life = .on := rfl

theorem witness_ReceiverFollowsTheDecision :
    State.reset.life = .off ∧ busy.radioRx = rxOn busy ∧ lastRadioRx busy.events = some (rxOn busy) ∧
    (∃ t, Host.Core.run Sys2Proof.core 1 (withOp busy 0x49000000#32) = .next t ∧ t.life = .on) ∧
    ∃ t, exec (.rxEnable false true 5) (onWith pibT0) = .next t ∧ t.life = .on ∧
      t.windowActive ≠ (onWith pibT0).windowActive :=
  ⟨rfl, rfl, rfl, ⟨_, rfl, rfl⟩, _, rfl, rfl, by decide⟩

theorem witness_SchedulerAndEngineAreIndependent :
    (∃ t, exec .txDone busy = .next t) ∧ (∃ t, exec .startRx busy = .next t) ∧ ∃ t, exec (.tick 1) busy = .next t :=
  ⟨⟨_, rfl⟩, ⟨_, rfl⟩, _, rfl⟩

/-- A busy block meets the invariant. -/
theorem witness_EveryStepKeepsTheInvariant :
    Inv Config.platform (withOp busy 0x49000000#32) ∧ ∃ t, step (withOp busy 0x49000000#32) = .next t := by
  refine ⟨⟨by decide, fun _ => by decide, fun _ => ⟨by decide, fun _ => by decide, by decide, by decide, Nat.zero_le _,
    by decide, by decide, by decide, fun _ => rfl, fun _ => by decide, by decide, fun _ => rfl, by decide⟩, fun _ => ?_,
    fun _ => ?_, fun _ => by decide, fun _ => by decide⟩, _, rfl⟩
  · simp [withOp, busy, Config.platform]
  · intro e he
    simp [withOp, busy] at he
    subst he
    exact ⟨by decide, Nat.zero_le _⟩

theorem witness_EveryRequestIsConfirmedOnce :
    busy.life = .on ∧ (∃ t, exec .reset busy = .next t) ∧ (∃ t, exec (.purge 5) busy = .next t) ∧
    ∃ t, exec (.dataReq 5 0 true false) busy = .next t := ⟨rfl, ⟨_, rfl⟩, ⟨_, rfl⟩, _, rfl⟩

theorem witness_SequenceNumberAdvancesOncePerRequest :
    (∃ t, exec (.ccaResult false) { onWith pibT0 with eng := engWith pibT0 .ccaWait } = .next t) ∧
    (∀ ih, Instr.ccaResult false ≠ .init ih) ∧ Instr.ccaResult false ≠ .deinit ∧ Instr.ccaResult false ≠ .reset := by
  refine ⟨⟨_, rfl⟩, ?_, ?_, ?_⟩ <;> decide

/-- The last busy result of a cycle (NB = 3 of 4), a tick, a busy DATA_REQ; an accepted DATA_REQ and a release. -/
theorem witness_TransmissionsAreBounded :
    let s := { onWith pibT0 with eng := { engZero .ccaWait with NB := 3 } }
    (s.eng.retries.toNat ≤ s.eng.sMaxFR.toNat ∧ s.eng.st = .ccaWait ∧ s.eng.NB.toNat < s.eng.sMaxCB.toNat ∧
      s.eng.seqValid = true ∧ ∃ t, exec (.ccaResult true) s = .next t) ∧
    (busy.eng.retries.toNat ≤ busy.eng.sMaxFR.toNat ∧ busy.eng.st ≠ .idle ∧
      ¬ (busy.eng.st = .backoff ∨ busy.eng.st = .ccaWait) ∧ (∃ t, exec (.tick 1) busy = .next t) ∧
      ∃ t, exec (.dataReq 5 0 false false) busy = .next t) ∧
    holding.eng.st = .idle ∧ (∃ t, exec (.dataReq 5 0 false false) holding = .next t) ∧
    ∃ t, exec (.indRelease 5) holding = .next t :=
  ⟨⟨by decide, rfl, by decide, rfl, _, rfl⟩, ⟨by decide, by decide, by decide, ⟨_, rfl⟩, _, rfl⟩, rfl, ⟨_, rfl⟩, _, rfl⟩

theorem witness_EngineReadsItsSnapshot :
    (∃ t, exec .txDone { busy with eng := engZero .txWait } = .next t) ∧ busy.eng.st ≠ .idle ∧
    (∃ t, exec (.dataReq 5 0 false true) busy = .next t) ∧ (∃ t, exec (.tick 1) busy = .next t) ∧
    { pibT0 with minBE := 0, ackWaitDuration := 0 }.dsn = busy.pib.dsn ∧
    { pibT0 with minBE := 0, ackWaitDuration := 0 }.rxOnWhenIdle = busy.pib.rxOnWhenIdle :=
  ⟨⟨_, rfl⟩, by decide, ⟨_, rfl⟩, ⟨_, rfl⟩, rfl, rfl⟩

/-- Two power-on states with different PIB registers, and a first DEINIT. -/
theorem witness_PowerOnValuesAreUnobservable :
    Indistinguishable (withOp State.reset 0x02000000#32) { withOp State.reset 0x02000000#32 with pib := pibT0 } ∧
    ∃ t, Host.Core.run Sys2Proof.core 1 (withOp State.reset 0x02000000#32) = .next t :=
  ⟨⟨rfl, rfl, rfl, rfl, rfl, rfl, rfl, fun h => nomatch h⟩, _, rfl⟩

end Sys2Proof.Tests
end

section
/-! PROOFS. The encoding: fields of an operation word, encode and decode as inverses (spec/30_encoding.md R81 to R86), the
pseudo-operations (R93) and the illegal words (R87). -/

namespace Sys2Proof

open Machine

/-! ## A field of a word: its bits, its value, and what a mask leaves of it -/

@[simp] theorem getElem_fieldAt {n : Nat} (v : BitVec n) (lo i : Nat) (hi : i < 32) :
    (fieldAt v lo)[i] = (decide (lo ≤ i) && v.getLsbD (i - lo)) := by
  by_cases hlo : lo ≤ i
  · simp [fieldAt, hlo, Nat.not_lt.mpr hlo, BitVec.getElem_setWidth]
  · simp [fieldAt, hlo, Nat.not_le.mp hlo]

@[simp] theorem getLsbD_fieldAt {n : Nat} (v : BitVec n) (lo i : Nat) :
    (fieldAt v lo).getLsbD i = (decide (i < 32) && (decide (lo ≤ i) && v.getLsbD (i - lo))) := by
  by_cases hi : i < 32
  · rw [BitVec.getLsbD_eq_getElem hi, getElem_fieldAt, decide_eq_true hi, Bool.true_and]
  · simp [BitVec.getLsbD_of_ge _ _ (Nat.not_lt.mp hi), hi]

@[simp] theorem extractLsb'_fieldAt_same {n : Nat} (v : BitVec n) {lo : Nat} (h : lo + n ≤ 32) :
    (fieldAt v lo).extractLsb' lo n = v := by
  apply BitVec.eq_of_getLsbD_eq
  intro i hi
  simp [hi, show lo + i < 32 by omega]

@[simp] theorem extractLsb'_fieldAt_disjoint {n : Nat} (v : BitVec n) {lo start len : Nat}
    (h : lo + n ≤ start ∨ start + len ≤ lo) : (fieldAt v lo).extractLsb' start len = 0#len := by
  apply BitVec.eq_of_getLsbD_eq
  intro i hi
  rcases h with h | h
  · simp [BitVec.getLsbD_extractLsb', BitVec.getLsbD_of_ge v _ (show n ≤ start + i - lo by omega)]
  · simp [BitVec.getLsbD_extractLsb', show ¬ lo ≤ start + i by omega]

/-- A mask acts on a field through the mask's own bits at the field's place. -/
theorem fieldAt_and {n : Nat} (v : BitVec n) {lo : Nat} (m : Word) :
    fieldAt v lo &&& m = fieldAt (v &&& m.extractLsb' lo n) lo := by
  apply BitVec.eq_of_getLsbD_eq
  intro i hi
  by_cases hlo : lo ≤ i
  · by_cases hn : i - lo < n
    · simp [hi, hlo, hn]
    · simp [BitVec.getLsbD_of_ge v _ (Nat.not_lt.mp hn)]
  · simp [hlo]

@[simp] theorem fieldAt_zero (n lo : Nat) : fieldAt 0#n lo = 0#32 := by simp [fieldAt]

/-- A field read and put back in its place is the word under the mask of that place. -/
theorem fieldAt_extractLsb' (w : Word) (lo n : Nat) :
    fieldAt (w.extractLsb' lo n) lo = w &&& fieldAt (BitVec.allOnes n) lo := by
  rw [BitVec.and_comm, fieldAt_and, BitVec.allOnes_and]

theorem bitAt_getLsbD (w : Word) (lo : Nat) : bitAt (w.getLsbD lo) lo = w &&& fieldAt 1#1 lo := by
  rw [BitVec.and_comm, fieldAt_and, bitAt]
  congr 1
  apply BitVec.eq_of_getLsbD_eq
  intro i hi
  obtain rfl : i = 0 := by omega
  simp

/-- Above a field whose bits and all lower ones are still 0, putting the field in place is an addition. -/
theorem or_fieldAt_eq_add {n : Nat} (w : Word) (v : BitVec n) {lo : Nat} (h : 2 ^ (lo + n) ∣ w.toNat) :
    w ||| fieldAt v lo = w + v.setWidth 32 * BitVec.ofNat 32 (2 ^ lo) := by
  have hdisj : w &&& fieldAt v lo = 0#32 := by
    obtain ⟨q, hq⟩ := h
    apply BitVec.eq_of_getLsbD_eq
    intro i _
    by_cases hi : lo + n ≤ i
    · simp [BitVec.getLsbD_of_ge v _ (show n ≤ i - lo by omega)]
    · simp [BitVec.getLsbD, hq, Nat.testBit_two_pow_mul, hi]
  have hpow : BitVec.twoPow 32 lo = BitVec.ofNat 32 (2 ^ lo) := BitVec.eq_of_toNat_eq (by simp)
  rw [← BitVec.add_eq_or_of_and_eq_zero _ _ hdisj, fieldAt, BitVec.shiftLeft_eq_mul_twoPow, hpow]

theorem or_bitAt_eq_add (w : Word) (b : Bool) {lo : Nat} (h : 2 ^ (lo + 1) ∣ w.toNat) :
    w ||| bitAt b lo = w + if b then BitVec.ofNat 32 (2 ^ lo) else 0#32 := by
  rw [bitAt, or_fieldAt_eq_add w _ h]
  cases b <;> simp

/-! ## The pseudo-operations (R93) -/

theorem encode_rxEnable_eq_add (stop start : Bool) (d : Symbols) :
    encode (.rxEnable stop start d) =
      0x40000000#32 + (if stop then 0x02000000#32 else 0#32) + (if start then 0x01000000#32 else 0#32) +
        d.setWidth 32 := by
  rw [encode, or_bitAt_eq_add _ stop (by decide), or_bitAt_eq_add _ start (by cases stop <;> decide),
    or_fieldAt_eq_add _ d (by cases stop <;> cases start <;> decide)]
  exact congrArg _ (BitVec.mul_one _)

theorem encode_ccaResult_eq_add (busy : Bool) :
    encode (.ccaResult busy) = 0x22000000#32 + if busy then 1#32 else 0#32 :=
  or_bitAt_eq_add _ busy (by decide)

theorem encode_dataReq_eq_add (h l : Byte) (ind ack : Bool) :
    encode (.dataReq h l ind ack) =
      0x20000000#32 + h.setWidth 32 * 0x10000#32 + l.setWidth 32 * 0x100#32 + (if ind then 2#32 else 0#32) +
        (if ack then 1#32 else 0#32) := by
  rw [encode, or_fieldAt_eq_add _ h (by decide), or_fieldAt_eq_add _ l (by simp; omega),
    or_bitAt_eq_add _ ind (by simp; omega), or_bitAt_eq_add _ ack (by cases ind <;> simp <;> omega)]
  rfl

/-- Settles O5: R93's words are the sums of the fields of DATA_REQ, CCA_RESULT and RX_ENABLE with the flags the expansion
fixes. -/
theorem pseudoOperationWords : Obligations.PseudoOperationWords := by
  intro d h l a
  refine ⟨?_, ?_, ?_, ?_, ?_, ?_, ?_, ?_, rfl, rfl, rfl, rfl, rfl, rfl, rfl, rfl⟩
  · exact encode_rxEnable_eq_add false true d
  · exact encode_rxEnable_eq_add true false 0
  · exact encode_rxEnable_eq_add true true d
  · exact encode_ccaResult_eq_add false
  · exact encode_ccaResult_eq_add true
  · rw [send, encode_dataReq_eq_add]
    simp
  · rw [sendAck, encode_dataReq_eq_add, if_neg Bool.false_ne_true, if_pos rfl]
    bv_omega
  · rw [hold, encode_dataReq_eq_add, if_pos rfl]
    cases a <;> bv_omega

/-! ## Encode and decode are inverses (R83 to R86) -/

@[simp] theorem Channel.bit_ofBit (b : Bool) : (Channel.ofBit b).bit = b := by cases b <;> rfl
@[simp] theorem Channel.ofBit_bit (ch : Channel) : Channel.ofBit ch.bit = ch := by cases ch <;> rfl
@[simp] theorem Direction.bit_ofBit (b : Bool) : (Direction.ofBit b).bit = b := by cases b <;> rfl
@[simp] theorem Direction.ofBit_bit (dir : Direction) : Direction.ofBit dir.bit = dir := by cases dir <;> rfl

/-- The codes of the rows of R85 but RX_ENABLE. -/
theorem opcRow_eq_none_iff (c : Byte) (w : Word) :
    opcRow c w = none ↔
      ¬ (0x01 ≤ c.toNat ∧ c.toNat ≤ 0x05) ∧ ¬ (0x10 ≤ c.toNat ∧ c.toNat ≤ 0x14) ∧
      ¬ (0x20 ≤ c.toNat ∧ c.toNat ≤ 0x24) ∧ ¬ (0x30 ≤ c.toNat ∧ c.toNat ≤ 0x31) ∧
      ¬ (0x48 ≤ c.toNat ∧ c.toNat ≤ 0x49) := by
  unfold opcRow
  split
  case h_20 =>
    simp only [true_iff, imp_false] at *
    bv_omega
  all_goals simp

/-- RX_ENABLE has the codes 0x40 to 0x43 (R85). -/
theorem rxEnable_code_iff (w : Word) :
    w.extractLsb' 26 6 = 0b010000#6 ↔ 0x40 ≤ (opcOf w).toNat ∧ (opcOf w).toNat ≤ 0x43 := by
  simp only [opcOf, ← BitVec.toNat_inj, BitVec.extractLsb'_toNat, Nat.shiftRight_eq_div_pow, BitVec.toNat_ofNat]
  omega

theorem opcRow_eq_none_of_rxEnable {w : Word} (h : w.extractLsb' 26 6 = 0b010000#6) : opcRow (opcOf w) w = none := by
  have := (rxEnable_code_iff w).1 h
  exact (opcRow_eq_none_iff _ w).2 (by omega)

/-- What decoding can read: RX_ENABLE, or the operation of a row none of whose reserved bits is set (R86). -/
theorem decode_eq_ok_iff {w : Word} {i : Instr} :
    decode w = .ok i ↔
      (w.extractLsb' 26 6 = 0b010000#6 ∧ .rxEnable (w.getLsbD 25) (w.getLsbD 24) (w.extractLsb' 0 24) = i) ∨
      ∃ f, opcRow (opcOf w) w = some (f, i) ∧ w &&& f.reserved = 0#32 := by
  by_cases hrx : w.extractLsb' 26 6 = 0b010000#6
  · simp [decode, hrx, opcRow_eq_none_of_rxEnable hrx]
  · rcases hrow : opcRow (opcOf w) w with _ | ⟨f, j⟩
    · simp [decode, hrx, hrow]
    · by_cases hres : w &&& f.reserved = 0#32 <;> simp [decode, hrx, hrow, hres]

theorem decode_eq_unassignedCode_iff {w : Word} :
    decode w = .error .unassignedCode ↔ w.extractLsb' 26 6 ≠ 0b010000#6 ∧ opcRow (opcOf w) w = none := by
  by_cases hrx : w.extractLsb' 26 6 = 0b010000#6
  · simp [decode, hrx]
  · rcases hrow : opcRow (opcOf w) w with _ | ⟨f, j⟩
    · simp [decode, hrx, hrow]
    · by_cases hres : w &&& f.reserved = 0#32 <;> simp [decode, hrx, hrow, hres]

/-- The fields RX_ENABLE reads, put back under its fixed bits, are the word. -/
theorem encode_of_rxEnable {w : Word} (h : w.extractLsb' 26 6 = 0b010000#6) :
    encode (.rxEnable (w.getLsbD 25) (w.getLsbD 24) (w.extractLsb' 0 24)) = w := by
  have hcode : 0x40000000#32 = w &&& 0xFC000000#32 := by
    have := fieldAt_extractLsb' w 26 6
    rwa [h] at this
  rw [encode, hcode, fieldAt_extractLsb', bitAt_getLsbD, bitAt_getLsbD]
  simp only [← BitVec.and_or_distrib_left]
  exact BitVec.and_allOnes

/-- The fields a row reads, put back under the row's code, are the word with its reserved bits cleared. -/
theorem encode_of_opcRow {w : Word} {f : Format} {i : Instr} (h : opcRow (opcOf w) w = some (f, i)) :
    encode i = w &&& ~~~f.reserved := by
  have hcode : fieldAt (opcOf w) 24 = w &&& 0xFF000000#32 := fieldAt_extractLsb' w 24 8
  generalize opcOf w = c at h hcode
  unfold opcRow at h
  split at h
  case h_20 => cases h
  all_goals
    cases h
    -- the row's code, evaluated to the constant `encode` writes
    simp [fieldAt] at hcode
    simp only [encode, hcode, Channel.bit_ofBit, Direction.bit_ofBit, fieldAt_extractLsb', bitAt_getLsbD,
      ← BitVec.and_or_distrib_left]
    refine congrArg (w &&& ·) ?_
    decide

/-- R86: a legal word is the word of its reading. -/
theorem encode_of_decode {w : Word} {i : Instr} (h : decode w = .ok i) : encode i = w := by
  rcases decode_eq_ok_iff.1 h with ⟨hrx, rfl⟩ | ⟨f, hrow, hres⟩
  · exact encode_of_rxEnable hrx
  · calc encode i = w &&& ~~~f.reserved := encode_of_opcRow hrow
      _ = (w &&& f.reserved) ||| (w &&& ~~~f.reserved) := by rw [hres, BitVec.zero_or]
      _ = w := by rw [← BitVec.and_or_distrib_left, BitVec.or_not_self, BitVec.and_allOnes]

/-- The code and the format of an operation's row of R85; RX_ENABLE, whose flags stand in its code, has four codes. -/
def rowOf : Instr → Option (Byte × Format)
  | .init _ => some (0x01, .I)
  | .deinit => some (0x02, .N)
  | .reset => some (0x03, .N)
  | .pibSet _ _ => some (0x04, .AV)
  | .pibGet _ => some (0x05, .A)
  | .hdrEncode _ _ => some (0x10, .CL)
  | .hdrDecode _ _ _ => some (0x11, .B3)
  | .frameParse _ _ => some (0x12, .CD)
  | .frameBuild _ _ _ => some (0x13, .CCD)
  | .classify _ _ => some (0x14, .CC)
  | .dataReq _ _ _ _ => some (0x20, .D)
  | .tick _ => some (0x21, .T)
  | .ccaResult _ => some (0x22, .C1)
  | .txDone => some (0x23, .N)
  | .ackRx _ => some (0x24, .S)
  | .indRelease _ => some (0x30, .H)
  | .purge _ => some (0x31, .H)
  | .rxEnable _ _ _ => none
  | .isRxEnabled => some (0x48, .N)
  | .startRx => some (0x49, .N)

theorem opcOf_encode {i : Instr} {c : Byte} {f : Format} (h : rowOf i = some (c, f)) : opcOf (encode i) = c := by
  cases i <;> cases h <;> simp [encode, opcOf, bitAt, BitVec.extractLsb'_or]

/-- Every field of a word reads back as the operand it was made from. -/
theorem opcRow_encode {i : Instr} {c : Byte} {f : Format} (h : rowOf i = some (c, f)) :
    opcRow c (encode i) = some (f, i) := by
  cases i <;> cases h <;> simp [encode, opcRow, bitAt, BitVec.extractLsb'_or]

/-- No field of a word reaches a reserved bit of its format (R83). -/
theorem encode_and_reserved {i : Instr} {c : Byte} {f : Format} (h : rowOf i = some (c, f)) :
    encode i &&& f.reserved = 0#32 := by
  cases i <;> cases h <;> simp [encode, Format.reserved, bitAt, BitVec.and_or_distrib_right, fieldAt_and]

theorem decode_encode_rxEnable (stop start : Bool) (d : Symbols) :
    decode (encode (.rxEnable stop start d)) = .ok (.rxEnable stop start d) := by
  refine decode_eq_ok_iff.2 (.inl ⟨?_, ?_⟩) <;> simp [encode, bitAt, BitVec.extractLsb'_or]

/-- R83 to R86: an operation's word decodes to the operation. -/
theorem decode_encode (i : Instr) : decode (encode i) = .ok i := by
  rcases hrow : rowOf i with _ | ⟨c, f⟩
  · cases i <;> cases hrow
    exact decode_encode_rxEnable _ _ _
  · refine decode_eq_ok_iff.2 (.inr ⟨f, ?_, encode_and_reserved hrow⟩)
    rw [opcOf_encode hrow, opcRow_encode hrow]

/-! ## Illegal words (R87) -/

theorem step_of_illegal {s : State} {op : PortOp} {rest : List PortOp} {e : DecodeError} (hport : s.port = op :: rest)
    (he : decode op.word = .error e) : step s = .next (refuse (s.takeOp op rest)) := by
  simp only [step, hport, he]

/-- A word is illegal exactly when it is no operation's word. -/
theorem illegal_iff (w : Word) : (∃ e, decode w = .error e) ↔ ∀ i, encode i ≠ w := by
  constructor
  · rintro ⟨e, he⟩ i rfl
    simp [decode_encode] at he
  · intro h
    cases hw : decode w with
    | error e => exact ⟨e, rfl⟩
    | ok i => exact absurd (encode_of_decode hw) (h i)

/-- The codes without a row, RX_ENABLE's four apart, are those R87 lists. -/
theorem unassignedCode_iff (w : Word) : decode w = .error .unassignedCode ↔
    ((opcOf w).toNat = 0 ∨ (6 ≤ (opcOf w).toNat ∧ (opcOf w).toNat ≤ 0x0F) ∨
      (0x15 ≤ (opcOf w).toNat ∧ (opcOf w).toNat ≤ 0x1F) ∨ (0x25 ≤ (opcOf w).toNat ∧ (opcOf w).toNat ≤ 0x2F) ∨
      (0x32 ≤ (opcOf w).toNat ∧ (opcOf w).toNat ≤ 0x3F) ∨ (0x44 ≤ (opcOf w).toNat ∧ (opcOf w).toNat ≤ 0x47) ∨
      (0x4A ≤ (opcOf w).toNat ∧ (opcOf w).toNat ≤ 0xFF)) := by
  rw [decode_eq_unassignedCode_iff, Ne, rxEnable_code_iff, opcRow_eq_none_iff]
  have := (opcOf w).isLt
  omega

/-- Settles O8: the refusal is the illegal branch of a step, the unassigned codes are those in no row, and the legal words
are those of the operations because encode and decode are inverses. -/
theorem illegalWordsAreRefused : Obligations.IllegalWordsAreRefused :=
  ⟨fun _ _ _ _ hport he => step_of_illegal hport he, unassignedCode_iff, illegal_iff⟩

end Sys2Proof
end

section
/-! PROOFS. Who writes a PIB register (spec/41_pib_lifecycle.md R118): PIB_SET the register of its attribute, the engine's
Transmit `dsn`, and, outside INIT, RESET and DEINIT, nothing else. -/

namespace Sys2Proof

open Machine

/-! ## Reading a PIB register after a write -/

/-- A write leaves every other register as it was. -/
theorem readPib_writePib_of_ne (p : Pib) {r r' : PibReg} (v : Half) (h : r' ≠ r) :
    readPib (writePib p r v) r' = readPib p r' := by
  cases r <;> cases r' <;> simp [readPib, writePib] at h ⊢

theorem dsn_writePib (p : Pib) {r : PibReg} (v : Half) (h : r ≠ .dsn) : (writePib p r v).dsn = p.dsn := by
  cases r
  case dsn => exact absurd rfl h
  all_goals rfl

/-- `dsn` has no legal value to set (R116). -/
theorem ne_dsn_of_legalPib {p : Pib} {r : PibReg} {v : Half} (h : legalPib p r v = true) : r ≠ .dsn := by
  rintro rfl
  cases h

theorem readPib_setDsn (p : Pib) (d : Byte) {r : PibReg} (h : r ≠ .dsn) :
    readPib { p with dsn := d } r = readPib p r := by
  cases r
  case dsn => exact absurd rfl h
  all_goals rfl

/-! ## PIB_SET and PIB_GET -/

theorem writeReg_pib (r : PibReg) (v : Half) (s : State) : (writeReg r v s).pib = writePib s.pib r v := by
  unfold writeReg
  split <;> rfl

/-- PIB_SET is refused outside ON, confirms another status than SUCCESS and does nothing else, or writes a legal value to
the register of its attribute and confirms SUCCESS (R115). -/
theorem pibSet_cases (attr : Byte) (v : Half) (s : State) :
    (s.life ≠ .on ∧ pibSet attr v s = refuse s) ∨
    (s.life = .on ∧ ∃ st, st ≠ .success ∧ pibSet attr v s = (s.emit (.confSet attr st)).done) ∨
    (s.life = .on ∧ ∃ r, attrReg attr = some r ∧ legalPib s.pib r v = true ∧
      pibSet attr v s = ((writeReg r v s).emit (.confSet attr .success)).done) := by
  unfold pibSet
  by_cases hon : s.life = .on
  · rw [if_pos hon]
    right
    split
    · exact .inl ⟨hon, .unsupportedAttribute, by decide, rfl⟩
    · exact .inl ⟨hon, .readOnly, by decide, rfl⟩
    · next r _ hr =>
      split
      · exact .inr ⟨hon, r, hr, ‹_›, rfl⟩
      · exact .inl ⟨hon, .invalidParameter, by decide, rfl⟩
  · exact .inl ⟨hon, if_neg hon⟩

/-- A PIB_SET that confirmed SUCCESS left the value it was given in the register of its attribute. -/
theorem readPib_pibSet_of_success {s : State} {attr : Byte} {v : Half} {r : PibReg} {es : List Event}
    (hes : (pibSet attr v s).events = s.events ++ es) (hmem : Event.confSet attr .success ∈ es)
    (hr : attrReg attr = some r) : readPib (pibSet attr v s).pib r = v := by
  obtain ⟨-, h⟩ | ⟨-, st, hst, h⟩ | ⟨-, r', hr', hlegal, h⟩ := pibSet_cases attr v s <;> rw [h] at hes ⊢
  · obtain rfl : es = [] := List.self_eq_append_right.mp hes
    exact absurd hmem List.not_mem_nil
  · obtain rfl : [Event.confSet attr st] = es := List.append_cancel_left hes
    cases List.mem_singleton.mp hmem
    exact absurd rfl hst
  · obtain rfl : r' = r := Option.some.inj (hr'.symm.trans hr)
    exact (congrArg (readPib · r') (writeReg_pib r' v s)).trans (readPib_writePib hlegal)

/-- PIB_SET changes no register but that of its attribute, and never `dsn` (R115, R116). -/
theorem pibSet_pib (attr : Byte) (v : Half) (s : State) :
    (pibSet attr v s).pib = s.pib ∨
      ∃ r, attrReg attr = some r ∧ r ≠ .dsn ∧ (pibSet attr v s).pib = writePib s.pib r v := by
  obtain ⟨-, h⟩ | ⟨-, _, -, h⟩ | ⟨-, r, hr, hlegal, h⟩ := pibSet_cases attr v s <;> rw [h]
  · exact .inl rfl
  · exact .inl rfl
  · exact .inr ⟨r, hr, ne_dsn_of_legalPib hlegal, writeReg_pib r v s⟩

/-- PIB_GET of a supported attribute confirms the register's value (R117). -/
theorem pibGet_of_attrReg {s : State} {attr : Byte} {r : PibReg} (hon : s.life = .on) (hr : attrReg attr = some r) :
    pibGet attr s = (s.emit (.confGet attr .success (readPib s.pib r))).done := by
  simp only [pibGet, hon, hr, if_true]

/-! ## `dsn` moves with a transmission, the other registers not at all -/

/-- No PIB register but `dsn` is written, and `dsn` only when a frame is handed to the radio (R118, R180). -/
structure WritesOnlyDsnByTransmit (s t : State) : Prop where
  pib : t.pib = { s.pib with dsn := t.pib.dsn }
  emits : ∃ es, t.events = s.events ++ es ∧ (t.pib.dsn ≠ s.pib.dsn → 1 ≤ transmissions es)

namespace WritesOnlyDsnByTransmit

theorem of_events {s t : State} {es : List Event} (hpib : t.pib = s.pib) (he : t.events = s.events ++ es) :
    WritesOnlyDsnByTransmit s t :=
  ⟨by rw [hpib], es, he, fun h => absurd (congrArg Pib.dsn hpib) h⟩

theorem of_quiet {s t : State} (hpib : t.pib = s.pib) (he : t.events = s.events) : WritesOnlyDsnByTransmit s t :=
  of_events hpib (he.trans (List.append_nil _).symm)

theorem refl (s : State) : WritesOnlyDsnByTransmit s s := of_quiet rfl rfl

theorem trans {s t u : State} (h : WritesOnlyDsnByTransmit s t) (k : WritesOnlyDsnByTransmit t u) :
    WritesOnlyDsnByTransmit s u := by
  obtain ⟨hpib, es, hes, htx⟩ := h
  obtain ⟨kpib, fs, kfs, ktx⟩ := k
  refine ⟨by rw [kpib, hpib], es ++ fs, by rw [kfs, hes, List.append_assoc], fun hne => ?_⟩
  rw [transmissions_append]
  by_cases heq : t.pib.dsn = s.pib.dsn
  · exact Nat.le_add_left_of_le (ktx (heq ▸ hne))
  · exact Nat.le_add_right_of_le (htx heq)

/-- The response is no register (R82). -/
theorem answer {s t : State} (h : WritesOnlyDsnByTransmit s t) (r : Response) :
    WritesOnlyDsnByTransmit s (t.answer r) := ⟨h.pib, h.emits⟩

theorem readPib_eq {s t : State} (h : WritesOnlyDsnByTransmit s t) {r : PibReg} (hr : r ≠ .dsn) :
    readPib t.pib r = readPib s.pib r := by
  rw [h.pib, readPib_setDsn s.pib _ hr]

end WritesOnlyDsnByTransmit

open WritesOnlyDsnByTransmit

theorem refuse_writes (s : State) : WritesOnlyDsnByTransmit s (refuse s) := (refl s).answer _

theorem emit_writes (s : State) (e : Event) : WritesOnlyDsnByTransmit s (s.emit e) := of_events rfl rfl

theorem setEng_writes (s : State) (e : Engine) : WritesOnlyDsnByTransmit s (s.setEng e) := of_quiet rfl rfl

theorem finish_writes (st : Status) (s : State) : WritesOnlyDsnByTransmit s (finish st s) := of_events rfl rfl

/-- The one procedure that writes `dsn` emits RADIO_TX (R180). -/
theorem transmit_writes (s : State) : WritesOnlyDsnByTransmit s (transmit s) :=
  ⟨(transmit_frame s).pib, [.radioTx _ _ _ _], congrArg (· ++ _) (assignSeq_events s), fun _ => Nat.le_refl 1⟩

theorem issueCca_writes (s : State) : WritesOnlyDsnByTransmit s (issueCca s) := of_events rfl rfl

theorem startBackoff_writes (c : Params) (s : State) : WritesOnlyDsnByTransmit s (startBackoff c s) := by
  obtain ⟨r, -, -, ⟨-, h⟩ | ⟨-, h⟩⟩ := startBackoff_cases c s <;> rw [h]
  · exact of_events rfl rfl
  · exact of_quiet rfl rfl

theorem startCycle_writes (c : Params) (s : State) : WritesOnlyDsnByTransmit s (startCycle c s) := by
  obtain ⟨-, h⟩ | ⟨-, -, h⟩ | ⟨-, -, h⟩ := startCycle_cases c s <;> rw [h]
  · exact transmit_writes s
  · exact (setEng_writes s _).trans (finish_writes _ _)
  · exact (setEng_writes s _).trans (startBackoff_writes c _)

theorem startRequest_writes (c : Params) (h l : Byte) (a : Bool) (s : State) :
    WritesOnlyDsnByTransmit s (startRequest c h l a s) := by
  obtain ⟨-, h⟩ | ⟨-, h⟩ := startRequest_cases c h l a s <;> rw [h]
  · exact (setEng_writes s _).trans (finish_writes _ _)
  · exact ((setEng_writes s _).trans (setEng_writes _ _)).trans (startCycle_writes c _)

theorem ackFail_writes (c : Params) (s : State) : WritesOnlyDsnByTransmit s (ackFail c s) := by
  obtain ⟨-, h⟩ | ⟨-, h⟩ := ackFail_cases c s <;> rw [h]
  · exact (setEng_writes s _).trans (startCycle_writes c _)
  · exact finish_writes _ s

theorem enqueue_writes (c : Params) (h l : Byte) (a : Bool) (s : State) :
    WritesOnlyDsnByTransmit s (enqueue c h l a s) := by
  unfold enqueue
  split_ifs
  · exact emit_writes s _
  · exact emit_writes s _
  · exact of_quiet rfl rfl

theorem applyRx_writes (s : State) : WritesOnlyDsnByTransmit s (applyRx s) := of_events rfl rfl

/-! ## Ticks -/

theorem stateTick_writes (c : Params) (s : State) : WritesOnlyDsnByTransmit s (stateTick c s) := by
  obtain ⟨-, -, h⟩ | ⟨-, -, h⟩ | ⟨-, -, h⟩ | ⟨-, -, h⟩ | ⟨-, -, h⟩ := stateTick_cases c s <;> rw [h]
  · exact (setEng_writes s _).trans (issueCca_writes _)
  · exact setEng_writes s _
  · exact (setEng_writes s _).trans (ackFail_writes c _)
  · exact setEng_writes s _
  · exact refl s

theorem engineTick_writes (c : Params) (s : State) : WritesOnlyDsnByTransmit s (engineTick c s) := by
  obtain ⟨-, h⟩ | ⟨-, -, h⟩ | ⟨-, -, h⟩ := engineTick_cases c s <;> rw [h]
  · exact refl s
  · exact (setEng_writes s _).trans (finish_writes _ _)
  · exact (setEng_writes s _).trans (stateTick_writes c _)

/-- After the engine's tick, those of the queue and the window only add events. -/
theorem oneTick_writes (c : Params) (s : State) : WritesOnlyDsnByTransmit s (oneTick c s) := by
  obtain ⟨es, he⟩ := oneTick_events c s
  exact (engineTick_writes c s).trans (of_events (oneTick_pib c s) he)

theorem ticks_writes (c : Params) (n : Nat) (s : State) : WritesOnlyDsnByTransmit s (ticks c n s) :=
  ticks_keep c (WritesOnlyDsnByTransmit s) (fun t h => h.trans (oneTick_writes c t)) n s (refl s)

/-! ## The operations outside the lifecycle, PIB_SET apart -/

theorem pibGet_writes (attr : Byte) (s : State) : WritesOnlyDsnByTransmit s (pibGet attr s) := by
  unfold pibGet
  split
  · split
    · exact (emit_writes s _).answer _
    · exact (emit_writes s _).answer _
  · exact refuse_writes s

theorem dataReq_writes (c : Params) (h l : Byte) (ind ack : Bool) (s : State) :
    WritesOnlyDsnByTransmit s (dataReq c h l ind ack s) := by
  unfold dataReq
  split_ifs
  · exact (emit_writes s _).answer _
  · exact (enqueue_writes c h l ack s).answer _
  · exact (startRequest_writes c h l ack s).answer _
  · exact (emit_writes s _).answer _
  · exact refuse_writes s

theorem tick_writes (c : Params) (n : Symbols) (s : State) : WritesOnlyDsnByTransmit s (tick c n s) := by
  unfold tick
  split
  · exact (ticks_writes c _ s).answer _
  · exact refuse_writes s

theorem ccaResult_writes (c : Params) (busy : Bool) (s : State) : WritesOnlyDsnByTransmit s (ccaResult c busy s) := by
  unfold ccaResult
  split_ifs
  · exact ((setEng_writes s _).trans (finish_writes _ (busyCca c s))).answer _
  · exact ((setEng_writes s _).trans (startBackoff_writes c (busyCca c s))).answer _
  · exact (transmit_writes s).answer _
  · exact refuse_writes s

theorem txDone_writes (c : Params) (s : State) : WritesOnlyDsnByTransmit s (txDone c s) := by
  unfold txDone
  split_ifs
  · exact (finish_writes _ s).answer _
  · exact (ackFail_writes c s).answer _
  · exact (setEng_writes s _).answer _
  · exact refuse_writes s

theorem ackRx_writes (seq : Byte) (s : State) : WritesOnlyDsnByTransmit s (ackRx seq s) := by
  unfold ackRx
  split
  · exact (finish_writes _ s).answer _
  · exact refuse_writes s

theorem setQueue_writes (s : State) (q : List Entry) : WritesOnlyDsnByTransmit s (s.setQueue q) := of_quiet rfl rfl

theorem indRelease_writes (c : Params) (h : Byte) (s : State) : WritesOnlyDsnByTransmit s (indRelease c h s) := by
  unfold indRelease
  split
  · split
    · exact (refl s).answer _
    · split
      · exact ((setQueue_writes s _).trans (startRequest_writes c _ _ _ _)).answer _
      · exact (refl s).answer _
  · exact refuse_writes s

theorem purge_writes (h : Byte) (s : State) : WritesOnlyDsnByTransmit s (purge h s) := by
  unfold purge
  split
  · split
    · exact (emit_writes s _).answer _
    · exact ((setQueue_writes s _).trans (emit_writes _ _)).answer _
  · exact refuse_writes s

theorem rxEnable_writes (stop start : Bool) (dur : Symbols) (s : State) :
    WritesOnlyDsnByTransmit s (rxEnable stop start dur s) := by
  have hmove : WritesOnlyDsnByTransmit s (moveWindow stop start dur s) := by
    rw [moveWindow_eq]
    exact of_quiet rfl rfl
  unfold rxEnable
  split_ifs
  · exact (hmove.trans (emit_writes _ _)).answer _
  · exact ((hmove.trans (applyRx_writes _)).trans (emit_writes _ _)).answer _
  · exact refuse_writes s

theorem isRxEnabled_writes (s : State) : WritesOnlyDsnByTransmit s (isRxEnabled s) := by
  unfold isRxEnabled
  split
  · exact (refl s).answer _
  · exact refuse_writes s

theorem startRx_writes (s : State) : WritesOnlyDsnByTransmit s (startRx s) := by
  unfold startRx
  split
  · exact (applyRx_writes s).answer _
  · exact refuse_writes s

/-- Outside PIB_SET and the lifecycle operations, the engine's Transmit is the only writer of the PIB (R118). -/
theorem exec_writes {i : Instr} {s t : State} (h : exec i s = .next t) (hinit : ∀ ih, i ≠ .init ih)
    (hdeinit : i ≠ .deinit) (hreset : i ≠ .reset) (hset : ∀ attr v, i ≠ .pibSet attr v) :
    WritesOnlyDsnByTransmit s t := by
  cases i <;> cases h
  case init ih => exact absurd rfl (hinit ih)
  case deinit => exact absurd rfl hdeinit
  case reset => exact absurd rfl hreset
  case pibSet attr v => exact absurd rfl (hset attr v)
  case pibGet => exact pibGet_writes _ s
  case hdrEncode => exact (refl s).answer _
  case hdrDecode => exact (refl s).answer _
  case frameParse => exact (refl s).answer _
  case frameBuild => exact (refl s).answer _
  case classify => exact (refl s).answer _
  case dataReq => exact dataReq_writes _ _ _ _ _ s
  case tick => exact tick_writes _ _ s
  case ccaResult => exact ccaResult_writes _ _ s
  case txDone => exact txDone_writes _ s
  case ackRx => exact ackRx_writes _ s
  case indRelease => exact indRelease_writes _ _ s
  case purge => exact purge_writes _ s
  case rxEnable => exact rxEnable_writes _ _ _ s
  case isRxEnabled => exact isRxEnabled_writes s
  case startRx => exact startRx_writes s

/-! ## R118 -/

/-- Who writes a PIB register: PIB_SET of its attribute, and for `dsn` a transmission. -/
theorem pib_writers {i : Instr} {s t : State} (h : exec i s = .next t) (hinit : ∀ ih, i ≠ .init ih)
    (hdeinit : i ≠ .deinit) (hreset : i ≠ .reset) :
    (∀ r, r ≠ .dsn → readPib t.pib r ≠ readPib s.pib r → ∃ attr v, i = .pibSet attr v ∧ attrReg attr = some r) ∧
    (t.pib.dsn ≠ s.pib.dsn → ∃ es, t.events = s.events ++ es ∧ 1 ≤ transmissions es) := by
  by_cases hset : ∃ attr v, i = .pibSet attr v
  · obtain ⟨attr, v, rfl⟩ := hset
    cases h
    obtain hpib | ⟨r, hr, hdsn, hpib⟩ := pibSet_pib attr v s <;> rw [hpib]
    · exact ⟨fun _ _ hne => absurd rfl hne, fun hne => absurd rfl hne⟩
    · refine ⟨fun r' _ hne => ?_, fun hne => absurd (dsn_writePib s.pib v hdsn) hne⟩
      obtain rfl : r' = r := not_imp_comm.mp (readPib_writePib_of_ne s.pib v) hne
      exact ⟨attr, v, rfl, hr⟩
  · have hw := exec_writes h hinit hdeinit hreset fun attr v hi => hset ⟨attr, v, hi⟩
    obtain ⟨es, hes, htx⟩ := hw.emits
    exact ⟨fun r hr hne => absurd (hw.readPib_eq hr) hne, fun hne => ⟨es, hes, htx hne⟩⟩

/-- Settles O20: a SET that confirmed SUCCESS left its value in the register, which the GET reads; and the writers are
those of `pib_writers`. -/
theorem pibReadAfterWrite : Obligations.PibReadAfterWrite := by
  refine ⟨?_, fun _ _ _ h hinit hdeinit hreset => pib_writers h hinit hdeinit hreset⟩
  rintro s _ u attr v r - ⟨⟩ ⟨es, hes, hmem⟩ hr hon hsame
  have hget : readPib u.pib r = v := hsame.trans (readPib_pibSet_of_success hes hmem hr)
  exact congrArg Host.Outcome.next ((pibGet_of_attrReg hon hr).trans (by rw [hget]; rfl))

end Sys2Proof
end

section
/-! PROOFS. The CHCI codec (spec/42_codec.md): its value and length fields, the cases of FRAME_PARSE and FRAME_BUILD, its
round trips (R146) and its independence of the state (R148). -/

namespace Sys2Proof

open Machine

/-! ## The three fields of a value and the two bytes of a length -/

/-- The fields of a codec value lie side by side (R141, R144). -/
theorem parseValue_eq_append (status code : Byte) (len : Half) : parseValue status code len = status ++ code ++ len := by
  apply BitVec.eq_of_getLsbD_eq
  intro i hi
  simp only [parseValue, BitVec.getLsbD_or, getLsbD_fieldAt, BitVec.getLsbD_append, hi]
  by_cases hlen : i < 16
  · simp [hlen, show ¬ 24 ≤ i by omega, show ¬ 16 ≤ i by omega]
  · by_cases hcode : i < 24
    · simp [hlen, show ¬ 24 ≤ i by omega, show 16 ≤ i by omega, show i - 16 < 8 by omega]
    · simp [hlen, show 24 ≤ i by omega, show 16 ≤ i by omega, show ¬ i - 16 < 8 by omega, Nat.sub_sub,
        BitVec.getLsbD_of_ge code (i - 16) (by omega)]

@[simp] theorem parseValue_status (status code : Byte) (len : Half) :
    (parseValue status code len).extractLsb' 24 8 = status := by
  simp [parseValue, BitVec.extractLsb'_or]

/-- Low byte first, a length reads back from its two bytes (R62). -/
@[simp] theorem headerLen_extractLsb' (len : Half) : headerLen (len.extractLsb' 0 8) (len.extractLsb' 8 8) = len := by
  apply BitVec.eq_of_getLsbD_eq
  intro i hi
  by_cases hlow : i < 8
  · simp [headerLen, hi, hlow]
  · simp [headerLen, hi, hlow, show i - 8 < 8 by omega, show 8 + (i - 8) = i by omega]

/-! ## What FRAME_PARSE and FRAME_BUILD answer -/

/-- Of the parse statuses only PS_OK is 0 (R144). -/
theorem parseStatus_number_eq_zero_iff (status : ParseStatus) : status.number = 0#8 ↔ status = .ok := by
  cases status <;> decide

/-- FRAME_BUILD refuses the payload or the code, with a status that is not PS_OK, or writes the message (R145). -/
theorem frameBuild_cases (c : Params) (code : Byte) (dir : Direction) (ch : Channel) (p : List Byte) :
    (∃ status len, status ≠ .ok ∧ frameBuild c code dir ch p = parseResponse status code len []) ∨
    (p.length ≤ c.maxChciPayload.toNat ∧ acceptable ch dir code = true ∧
      frameBuild c code dir ch p = parseResponse .ok code (BitVec.ofNat 16 p.length)
        (headerBytes code (BitVec.ofNat 16 p.length) ++ p)) := by
  unfold frameBuild
  split_ifs with hlong hcode
  · exact .inl ⟨.tooLong, _, by decide, rfl⟩
  · exact .inl ⟨.badCode, _, by decide, rfl⟩
  · exact .inr ⟨Nat.le_of_not_lt hlong, eq_true_of_ne_false hcode, rfl⟩

/-- A FRAME_BUILD of status 0 passed both checks and wrote the message. -/
theorem frameBuild_of_status_zero {c : Params} {code : Byte} {dir : Direction} {ch : Channel} {p : List Byte}
    (h : (frameBuild c code dir ch p).value.extractLsb' 24 8 = 0#8) :
    p.length ≤ c.maxChciPayload.toNat ∧ acceptable ch dir code = true ∧
      (frameBuild c code dir ch p).dataOut = headerBytes code (BitVec.ofNat 16 p.length) ++ p := by
  obtain ⟨status, len, hstatus, heq⟩ | ⟨hlen, hcode, heq⟩ := frameBuild_cases c code dir ch p <;> rw [heq] at h ⊢
  · rw [parseResponse, parseValue_status, parseStatus_number_eq_zero_iff] at h
    exact absurd h hstatus
  · exact ⟨hlen, hcode, rfl⟩

/-- A message within MAX_CHCI_PAYLOAD, under its own header and an acceptable code, parses to its payload (R143). The bound
is what makes the 16-bit length field exact. -/
theorem frameParse_headerBytes_append {c : Params} {code : Byte} {dir : Direction} {ch : Channel} {p : List Byte}
    (hlen : p.length ≤ c.maxChciPayload.toNat) (hcode : acceptable ch dir code = true) :
    frameParse c dir ch (headerBytes code (BitVec.ofNat 16 p.length) ++ p) =
      parseResponse .ok code (BitVec.ofNat 16 p.length) p := by
  have hfield : (BitVec.ofNat 16 p.length).toNat = p.length :=
    Nat.mod_eq_of_lt (Nat.lt_of_le_of_lt hlen c.maxChciPayload.isLt)
  have hlength : p.length + 3 = 3 + p.length := Nat.add_comm _ _
  simp [headerBytes, frameParse, hfield, hcode, Nat.not_lt.mpr hlen, hlength]

theorem frameBuild_handled (c : Params) (code : Byte) (dir : Direction) (ch : Channel) (p : List Byte) :
    (frameBuild c code dir ch p).handled = true := by
  obtain ⟨_, _, -, h⟩ | ⟨-, -, h⟩ := frameBuild_cases c code dir ch p <;> rw [h] <;> rfl

theorem frameParse_handled (c : Params) (dir : Direction) (ch : Channel) (buf : List Byte) :
    (frameParse c dir ch buf).handled = true := by
  unfold frameParse
  split
  · split_ifs <;> rfl
  · rfl

/-! ## R146 -/

/-- HDR_DECODE of the three header bytes gives the code and the length. -/
theorem hdrDecode_headerBytes (code : Byte) (len : Half) :
    hdrDecode code (len.extractLsb' 0 8) (len.extractLsb' 8 8) = ⟨true, 0#8 ++ code ++ len, []⟩ := by
  rw [hdrDecode, headerLen_extractLsb', parseValue_eq_append]
  rfl

/-- FRAME_PARSE of what a FRAME_BUILD of status 0 wrote gives the payload back. -/
theorem frameParse_frameBuild {c : Params} {code : Byte} {dir : Direction} {ch : Channel} {p : List Byte}
    (h : (frameBuild c code dir ch p).value.extractLsb' 24 8 = 0#8) :
    frameParse c dir ch (frameBuild c code dir ch p).dataOut = ⟨true, 0#8 ++ code ++ BitVec.ofNat 16 p.length, p⟩ := by
  obtain ⟨hlen, hcode, hout⟩ := frameBuild_of_status_zero h
  rw [hout, frameParse_headerBytes_append hlen hcode, parseResponse, parseValue_eq_append]
  rfl

/-- Settles O26: the header bytes read back, and the response that FRAME_BUILD appended is the one
`frameParse_frameBuild` undoes. -/
theorem codecRoundTrips : Obligations.CodecRoundTrips := by
  refine ⟨fun code len => ⟨_, _, _, _, rfl, hdrDecode_headerBytes code len⟩, ?_⟩
  rintro s _ u code dir ch r ⟨⟩ hr hstatus hdata
  obtain rfl : frameBuild Config.platform code dir ch s.dataIn = r :=
    List.singleton_inj.mp (List.append_cancel_left hr)
  have hparse : frameParse Config.platform dir ch u.dataIn =
      ⟨true, 0#8 ++ code ++ BitVec.ofNat 16 s.dataIn.length, s.dataIn⟩ := hdata ▸ frameParse_frameBuild hstatus
  exact congrArg (fun r => Host.Outcome.next (u.answer r)) hparse

/-! ## R148 -/

/-- Settles O27: the response of each codec operation is a function of its operands and the buffer, and all it does is to
answer it. -/
theorem codecIsStateless : Obligations.CodecIsStateless := by
  intro i d h
  cases i <;> cases h
  case hdrEncode code len => exact ⟨hdrEncode code len, rfl, fun _ _ => rfl⟩
  case hdrDecode b0 b1 b2 => exact ⟨hdrDecode b0 b1 b2, rfl, fun _ _ => rfl⟩
  case frameParse dir ch =>
    refine ⟨frameParse Config.platform dir ch d, frameParse_handled _ dir ch d, ?_⟩
    rintro s rfl
    rfl
  case frameBuild code dir ch =>
    refine ⟨frameBuild Config.platform code dir ch d, frameBuild_handled _ code dir ch d, ?_⟩
    rintro s rfl
    rfl
  case classify code ch => exact ⟨classify code ch, rfl, fun _ _ => rfl⟩

end Sys2Proof
end

section
/-! PROOFS. The indirect queue: PURGE of a handle that is not held (spec/44_indirect_queue.md R227). -/

namespace Sys2Proof

open Machine

/-- In ON, with no entry of the handle, PURGE only confirms INVALID_HANDLE (R227). -/
theorem purge_of_oldest_none {s : State} {h : Byte} (hon : s.life = .on) (hnone : oldest s.queue h = none) :
    purge h s = (s.emit (.confPurge h .invalidHandle)).done := by
  simp only [purge, hon, hnone, if_true]

/-- Settles O48: a handle with `find(h) = NONE` has no oldest entry, so PURGE takes its first branch, which writes the event
and the response alone. -/
theorem purgeOfAnUnknownHandle : Obligations.PurgeOfAnUnknownHandle := by
  intro s h hon hfind
  have hnone : oldest s.queue h = none := oldest_eq_none.mpr hfind
  exact congrArg Host.Outcome.next (purge_of_oldest_none hon hnone)

end Sys2Proof
end

section
/-! PROOFS. The RX-enable scheduler (spec/45_rx_scheduler.md): what IS_RX_ENABLED answers (R257), and the receiver
following the combined decision (R258). Each operation either leaves the receiver and its inputs alone or ends with the
decision applied, which is all R258 needs. -/

namespace Sys2Proof

open Machine

/-! ## IS_RX_ENABLED (R257) -/

theorem bitWord_eq_ite (b : Bool) : bitWord b = if b = true then 1#32 else 0#32 := by cases b <;> rfl

theorem rxOn_eq_true_iff (s : State) : rxOn s = true ↔ s.pib.rxOnWhenIdle = true ∨ s.windowActive = true :=
  Bool.or_eq_true_iff

theorem isRxEnabled_of_on {s : State} (hon : s.life = .on) : isRxEnabled s = s.respond (bitWord (rxOn s)) :=
  if_pos hon

/-- Settles O50: the response is the decision as a number, and the decision is an OR. -/
theorem receiverIsOnWhenEitherInputIs : Obligations.ReceiverIsOnWhenEitherInputIs := by
  refine ⟨fun s hon => congrArg Host.Outcome.next ?_, fun s p w => ⟨?_, ?_, ?_⟩⟩
  · simp only [isRxEnabled_of_on hon, bitWord_eq_ite, rxOn_eq_true_iff]
    rfl
  · exact Bool.or_false p
  · exact Bool.false_or w
  · exact Bool.or_true p

/-! ## The receiver left alone, and the receiver driven -/

/-- The lifecycle, the two inputs and the receiver are as they were, and no RADIO_RX is emitted. -/
structure KeepsReceiver (s t : State) : Prop where
  life : t.life = s.life
  policy : t.pib.rxOnWhenIdle = s.pib.rxOnWhenIdle
  window : t.windowActive = s.windowActive
  radioRx : t.radioRx = s.radioRx
  silent : ∃ es, t.events = s.events ++ es ∧ lastRadioRx es = none

/-- The decision as it is at the end stands in `radioRx`, and the last RADIO_RX emitted on the way carries it (R251). -/
structure DrivesReceiver (s t : State) : Prop where
  radioRx : t.radioRx = rxOn t
  driven : ∃ es, t.events = s.events ++ es ∧ lastRadioRx es = some (rxOn t)

/-- R258 as an invariant: the claim while the block is ON, nothing else. -/
def ReceiverDecided (s : State) : Prop :=
  s.life = .on → s.radioRx = rxOn s ∧ lastRadioRx s.events = some (rxOn s)

namespace KeepsReceiver

theorem of_quiet {s t : State} (hlife : t.life = s.life) (hpolicy : t.pib.rxOnWhenIdle = s.pib.rxOnWhenIdle)
    (hwindow : t.windowActive = s.windowActive) (hrx : t.radioRx = s.radioRx) (he : t.events = s.events) :
    KeepsReceiver s t := ⟨hlife, hpolicy, hwindow, hrx, [], he.trans (List.append_nil _).symm, rfl⟩

theorem refl (s : State) : KeepsReceiver s s := of_quiet rfl rfl rfl rfl rfl

theorem rxOn_eq {s t : State} (h : KeepsReceiver s t) : rxOn t = rxOn s := by rw [rxOn, rxOn, h.policy, h.window]

theorem trans {s t u : State} (h : KeepsReceiver s t) (k : KeepsReceiver t u) : KeepsReceiver s u := by
  obtain ⟨es, hes, hnone⟩ := h.silent
  obtain ⟨fs, hfs, knone⟩ := k.silent
  exact ⟨k.life.trans h.life, k.policy.trans h.policy, k.window.trans h.window, k.radioRx.trans h.radioRx, es ++ fs,
    by rw [hfs, hes, List.append_assoc], by rw [lastRadioRx_append, knone, hnone]; rfl⟩

/-- The response is no register (R82). -/
theorem answer {s t : State} (h : KeepsReceiver s t) (r : Response) : KeepsReceiver s (t.answer r) :=
  ⟨h.life, h.policy, h.window, h.radioRx, h.silent⟩

theorem emit {s t : State} (h : KeepsReceiver s t) {e : Event} (he : lastRadioRx [e] = none) :
    KeepsReceiver s (t.emit e) := h.trans ⟨rfl, rfl, rfl, rfl, [e], rfl, he⟩

/-- An engine procedure that emits no RADIO_RX: the rest is outside the engine (R259). -/
theorem of_engine {s t : State} (h : EngineFrame s t) (hes : ∃ es, t.events = s.events ++ es ∧ lastRadioRx es = none) :
    KeepsReceiver s t := ⟨h.life, by rw [h.pib], h.windowActive, h.radioRx, hes⟩

theorem of_settles {s t : State} (h : EngineFrame s t) (hs : Settles s t) : KeepsReceiver s t := by
  obtain ⟨es, hes, hnone, -⟩ := hs
  exact of_engine h ⟨es, hes, hnone⟩

theorem decided {s t : State} (h : KeepsReceiver s t) (hs : ReceiverDecided s) : ReceiverDecided t := by
  intro hon
  obtain ⟨hrx, hlast⟩ := hs (h.life.symm.trans hon)
  obtain ⟨es, hes, hnone⟩ := h.silent
  exact ⟨by rw [h.radioRx, hrx, h.rxOn_eq], by rw [hes, lastRadioRx_append, hnone, hlast, h.rxOn_eq]; rfl⟩

end KeepsReceiver

namespace DrivesReceiver

/-- The last RADIO_RX counts, so what was emitted before the receiver is driven does not matter. -/
theorem of_emitted {s t u : State} {es : List Event} (hes : t.events = s.events ++ es) (k : DrivesReceiver t u) :
    DrivesReceiver s u := by
  obtain ⟨fs, hfs, ksome⟩ := k.driven
  exact ⟨k.radioRx, es ++ fs, by rw [hfs, hes, List.append_assoc], by rw [lastRadioRx_append, ksome]; rfl⟩

theorem of_keeps {s t u : State} (h : KeepsReceiver s t) (k : DrivesReceiver t u) : DrivesReceiver s u := by
  obtain ⟨_, hes, -⟩ := h.silent
  exact k.of_emitted hes

theorem keep {s t u : State} (h : DrivesReceiver s t) (k : KeepsReceiver t u) : DrivesReceiver s u := by
  obtain ⟨es, hes, hsome⟩ := h.driven
  obtain ⟨fs, hfs, knone⟩ := k.silent
  exact ⟨by rw [k.radioRx, h.radioRx, k.rxOn_eq], es ++ fs, by rw [hfs, hes, List.append_assoc],
    by rw [lastRadioRx_append, knone, hsome, k.rxOn_eq]; rfl⟩

theorem trans {s t u : State} (h : DrivesReceiver s t) (k : DrivesReceiver t u) : DrivesReceiver s u := by
  obtain ⟨_, hes, -⟩ := h.driven
  exact k.of_emitted hes

theorem answer {s t : State} (h : DrivesReceiver s t) (r : Response) : DrivesReceiver s (t.answer r) :=
  ⟨h.radioRx, h.driven⟩

theorem emit {s t : State} (h : DrivesReceiver s t) {e : Event} (he : lastRadioRx [e] = none) :
    DrivesReceiver s (t.emit e) := h.keep ((KeepsReceiver.refl t).emit he)

theorem decided {s t : State} (h : DrivesReceiver s t) : ReceiverDecided t := by
  intro _
  obtain ⟨es, hes, hsome⟩ := h.driven
  exact ⟨h.radioRx, by rw [hes, lastRadioRx_append, hsome]; rfl⟩

end DrivesReceiver

/-- ApplyRx drives the receiver, whatever inputs it was given, when nothing was emitted since `s` (R251). -/
theorem applyRx_drives {s t : State} (he : t.events = s.events) : DrivesReceiver s (applyRx t) :=
  ⟨rfl, [.radioRx (rxOn t)], congrArg (· ++ _) he, rfl⟩

theorem refuse_keepsReceiver (s : State) : KeepsReceiver s (refuse s) := (KeepsReceiver.refl s).answer _

/-! ## The engine and the queue leave the receiver alone -/

theorem setEng_keepsReceiver (s : State) (e : Engine) : KeepsReceiver s (s.setEng e) := .of_quiet rfl rfl rfl rfl rfl

theorem setQueue_keepsReceiver (s : State) (q : List Entry) : KeepsReceiver s (s.setQueue q) :=
  .of_quiet rfl rfl rfl rfl rfl

theorem finish_keepsReceiver (st : Status) (s : State) : KeepsReceiver s (finish st s) :=
  .of_settles (finish_frame st s) (finish_settles st s)

theorem transmit_keepsReceiver (s : State) : KeepsReceiver s (transmit s) :=
  .of_settles (transmit_frame s) (transmit_settles s)

theorem startBackoff_keepsReceiver (c : Params) (s : State) : KeepsReceiver s (startBackoff c s) :=
  .of_settles (startBackoff_frame c s) (startBackoff_settles c s)

theorem ackFail_keepsReceiver (c : Params) (s : State) : KeepsReceiver s (ackFail c s) :=
  .of_settles (ackFail_frame c s) (ackFail_settles c s)

theorem startRequest_keepsReceiver (c : Params) (h l : Byte) (a : Bool) (s : State) :
    KeepsReceiver s (startRequest c h l a s) := by
  obtain ⟨es, hes, hnone, -⟩ := startRequest_settles c h l a s
  exact .of_engine (startRequest_frame c h l a s) ⟨es, hes, hnone⟩

theorem enqueue_keepsReceiver (c : Params) (h l : Byte) (a : Bool) (s : State) :
    KeepsReceiver s (enqueue c h l a s) := by
  unfold enqueue
  split_ifs
  · exact (KeepsReceiver.refl s).emit rfl
  · exact (KeepsReceiver.refl s).emit rfl
  · exact setQueue_keepsReceiver s _

theorem engineTick_keepsReceiver (c : Params) (s : State) : KeepsReceiver s (engineTick c s) := by
  by_cases hidle : s.eng.st = .idle
  · rw [engineTick, if_pos hidle]
    exact .refl s
  · exact .of_settles (engineTick_frame c s) (engineTick_settles c s hidle)

theorem queueTick_keepsReceiver (s : State) : KeepsReceiver s (queueTick s) :=
  ⟨rfl, rfl, rfl, rfl, _, rfl, lastRadioRx_expired _⟩

theorem dataReq_keepsReceiver (c : Params) (h l : Byte) (ind ack : Bool) (s : State) :
    KeepsReceiver s (dataReq c h l ind ack s) := by
  unfold dataReq
  split_ifs
  · exact ((KeepsReceiver.refl s).emit rfl).answer _
  · exact (enqueue_keepsReceiver c h l ack s).answer _
  · exact (startRequest_keepsReceiver c h l ack s).answer _
  · exact ((KeepsReceiver.refl s).emit rfl).answer _
  · exact refuse_keepsReceiver s

theorem ccaResult_keepsReceiver (c : Params) (busy : Bool) (s : State) : KeepsReceiver s (ccaResult c busy s) := by
  have hbusy : KeepsReceiver s (busyCca c s) := setEng_keepsReceiver s _
  unfold ccaResult
  split_ifs
  · exact (hbusy.trans (finish_keepsReceiver _ _)).answer _
  · exact (hbusy.trans (startBackoff_keepsReceiver c _)).answer _
  · exact (transmit_keepsReceiver s).answer _
  · exact refuse_keepsReceiver s

theorem txDone_keepsReceiver (c : Params) (s : State) : KeepsReceiver s (txDone c s) := by
  unfold txDone
  split_ifs
  · exact (finish_keepsReceiver _ s).answer _
  · exact (ackFail_keepsReceiver c s).answer _
  · exact (setEng_keepsReceiver s _).answer _
  · exact refuse_keepsReceiver s

theorem ackRx_keepsReceiver (seq : Byte) (s : State) : KeepsReceiver s (ackRx seq s) := by
  unfold ackRx
  split
  · exact (finish_keepsReceiver _ s).answer _
  · exact refuse_keepsReceiver s

theorem indRelease_keepsReceiver (c : Params) (h : Byte) (s : State) : KeepsReceiver s (indRelease c h s) := by
  unfold indRelease
  split
  · split
    · exact (KeepsReceiver.refl s).answer _
    · split
      · exact ((setQueue_keepsReceiver s _).trans (startRequest_keepsReceiver c _ _ _ _)).answer _
      · exact (KeepsReceiver.refl s).answer _
  · exact refuse_keepsReceiver s

theorem purge_keepsReceiver (h : Byte) (s : State) : KeepsReceiver s (purge h s) := by
  unfold purge
  split
  · split
    · exact ((KeepsReceiver.refl s).emit rfl).answer _
    · exact ((setQueue_keepsReceiver s _).emit rfl).answer _
  · exact refuse_keepsReceiver s

theorem pibGet_keepsReceiver (attr : Byte) (s : State) : KeepsReceiver s (pibGet attr s) := by
  unfold pibGet
  split
  · split
    · exact ((KeepsReceiver.refl s).emit rfl).answer _
    · exact ((KeepsReceiver.refl s).emit rfl).answer _
  · exact refuse_keepsReceiver s

theorem isRxEnabled_keepsReceiver (s : State) : KeepsReceiver s (isRxEnabled s) := by
  unfold isRxEnabled
  split
  · exact (KeepsReceiver.refl s).answer _
  · exact refuse_keepsReceiver s

/-! ## The operations that drive the receiver -/

theorem startRx_receiver (s : State) : KeepsReceiver s (startRx s) ∨ DrivesReceiver s (startRx s) := by
  unfold startRx
  split
  · exact .inr ((applyRx_drives rfl).answer _)
  · exact .inl (refuse_keepsReceiver s)

/-- INIT drives the receiver in the block it turns ON, from OFF only (R110). -/
theorem init_receiver {c : Params} {s : State} (hon : (init c s).life = .on) :
    KeepsReceiver s (init c s) ∨ (s.life = .off ∧ DrivesReceiver s (init c s)) := by
  have hquiet : ((clearBlock c.pibDefault (s.setDraws (s.draws + 1))).setLife .on).events = s.events := rfl
  unfold init at hon ⊢
  split_ifs at hon ⊢ with hoff hdraw
  · exact .inr ⟨hoff, (applyRx_drives hquiet).answer _⟩
  · cases hon
  · exact .inl (refuse_keepsReceiver s)

/-- DEINIT leaves no block ON (R113): it is refused in FAILED, does nothing in OFF, and turns an ON block OFF. -/
theorem deinit_life_ne_on (s : State) : (deinit s).life ≠ .on := by
  unfold deinit
  split <;> simp_all

theorem resetBlock_receiver (c : Params) (s : State) :
    KeepsReceiver s (resetBlock c s) ∨ DrivesReceiver s (resetBlock c s) := by
  have hquiet : (clearBlock c.pibDefault s).events = s.events := rfl
  unfold resetBlock
  split
  · exact .inr (((applyRx_drives hquiet).emit rfl).answer _)
  · exact .inl (refuse_keepsReceiver s)

theorem rxOnWhenIdle_writePib (p : Pib) {r : PibReg} (v : Half) (h : r ≠ .rxOnWhenIdle) :
    (writePib p r v).rxOnWhenIdle = p.rxOnWhenIdle := by
  cases r
  case rxOnWhenIdle => exact absurd rfl h
  all_goals rfl

/-- A write that changes the policy is one of `rxOnWhenIdle`, and drives the receiver (R256). -/
theorem writeReg_receiver (r : PibReg) (v : Half) (s : State) :
    KeepsReceiver s (writeReg r v s) ∨ (r = .rxOnWhenIdle ∧ DrivesReceiver s (writeReg r v s)) := by
  unfold writeReg
  split
  · next hsame => exact .inl (.of_quiet rfl hsame rfl rfl rfl)
  · next hne => exact .inr ⟨not_imp_comm.mp (rxOnWhenIdle_writePib s.pib v) hne, applyRx_drives rfl⟩

/-- `rxOnWhenIdle` has the one attribute 0x52 (R24). -/
theorem eq_of_attrReg_rxOnWhenIdle {attr : Byte} (h : attrReg attr = some .rxOnWhenIdle) : attr = 0x52 := by
  unfold attrReg at h
  split at h <;> cases h
  rfl

theorem pibSet_receiver (attr : Byte) (v : Half) (s : State) :
    KeepsReceiver s (pibSet attr v s) ∨ (attr = 0x52 ∧ DrivesReceiver s (pibSet attr v s)) := by
  obtain ⟨-, h⟩ | ⟨-, st, -, h⟩ | ⟨-, r, hr, -, h⟩ := pibSet_cases attr v s <;> rw [h]
  · exact .inl (refuse_keepsReceiver s)
  · exact .inl (((KeepsReceiver.refl s).emit rfl).answer _)
  · obtain hkeep | ⟨rfl, hdrive⟩ := writeReg_receiver r v s
    · exact .inl ((hkeep.emit rfl).answer _)
    · exact .inr ⟨eq_of_attrReg_rxOnWhenIdle hr, (hdrive.emit rfl).answer _⟩

/-- RX_ENABLE drives the receiver when it opens or closes the window, and leaves it alone otherwise (R252). -/
theorem rxEnable_receiver (stop start : Bool) (dur : Symbols) (s : State) :
    KeepsReceiver s (rxEnable stop start dur s) ∨ DrivesReceiver s (rxEnable stop start dur s) := by
  unfold rxEnable
  split_ifs with hon hsame
  · have hmove : KeepsReceiver s (moveWindow stop start dur s) := by
      rw [moveWindow_eq] at hsame ⊢
      exact .of_quiet rfl rfl hsame rfl rfl
    exact .inl ((hmove.emit rfl).answer _)
  · have hquiet : (moveWindow stop start dur s).events = s.events := by rw [moveWindow_eq]; rfl
    exact .inr (((applyRx_drives hquiet).emit rfl).answer _)
  · exact .inl (refuse_keepsReceiver s)

/-! ## TICK -/

/-- An open window counts down in silence; its close drives the receiver (R255). -/
theorem windowTick_receiver (s : State) : KeepsReceiver s (windowTick s) ∨ DrivesReceiver s (windowTick s) := by
  obtain ⟨-, h⟩ | ⟨-, -, h⟩ | ⟨hopen, -, h⟩ := windowTick_cases s <;> rw [h]
  · exact .inl (.refl s)
  · exact .inr (applyRx_drives rfl)
  · exact .inl (.of_quiet rfl rfl hopen.symm rfl rfl)

theorem oneTick_receiver (c : Params) (s : State) : KeepsReceiver s (oneTick c s) ∨ DrivesReceiver s (oneTick c s) := by
  have hbefore : KeepsReceiver s (queueTick (engineTick c s)) :=
    (engineTick_keepsReceiver c s).trans (queueTick_keepsReceiver _)
  exact (windowTick_receiver (queueTick (engineTick c s))).imp hbefore.trans (.of_keeps hbefore)

theorem ticks_receiver (c : Params) (n : Nat) (s : State) :
    KeepsReceiver s (ticks c n s) ∨ DrivesReceiver s (ticks c n s) := by
  refine ticks_keep c (fun t => KeepsReceiver s t ∨ DrivesReceiver s t) (fun t ht => ?_) n s (.inl (.refl s))
  obtain hkeep | hdrive := ht
  · exact (oneTick_receiver c t).imp hkeep.trans (.of_keeps hkeep)
  · exact .inr ((oneTick_receiver c t).elim hdrive.keep hdrive.trans)

theorem tick_receiver (c : Params) (n : Symbols) (s : State) :
    KeepsReceiver s (tick c n s) ∨ DrivesReceiver s (tick c n s) := by
  unfold tick
  split
  · exact (ticks_receiver c n.toNat s).imp (·.answer _) (·.answer _)
  · exact .inl (refuse_keepsReceiver s)

/-! ## R258 -/

/-- The operations that can apply the decision, by the lifecycle state they do it in: INIT, which turns a block ON,
START_RX, and those of R258 that write an input. -/
inductive AppliesDecision : Life → Instr → Prop
  | init (ih : Bool) : AppliesDecision .off (.init ih)
  | startRx {l : Life} : AppliesDecision l .startRx
  | reset {l : Life} : AppliesDecision l .reset
  | pibSet {l : Life} (v : Half) : AppliesDecision l (.pibSet 0x52 v)
  | rxEnable {l : Life} (stop start : Bool) (dur : Symbols) : AppliesDecision l (.rxEnable stop start dur)
  | tick {l : Life} (n : Symbols) : AppliesDecision l (.tick n)

/-- Every operation that ends ON leaves the receiver and its inputs alone, or is one that applies the decision and did. -/
theorem exec_receiver {i : Instr} {s t : State} (h : exec i s = .next t) (hon : t.life = .on) :
    KeepsReceiver s t ∨ (AppliesDecision s.life i ∧ DrivesReceiver s t) := by
  cases i <;> cases h
  case init ih => exact (init_receiver hon).imp_right fun ⟨hoff, hdrive⟩ => ⟨hoff ▸ .init ih, hdrive⟩
  case deinit => exact absurd hon (deinit_life_ne_on s)
  case reset => exact (resetBlock_receiver _ s).imp_right (⟨.reset, ·⟩)
  case pibSet attr v =>
    refine (pibSet_receiver attr v s).imp_right ?_
    rintro ⟨rfl, hdrive⟩
    exact ⟨.pibSet v, hdrive⟩
  case tick n => exact (tick_receiver _ n s).imp_right (⟨.tick n, ·⟩)
  case rxEnable stop start dur => exact (rxEnable_receiver stop start dur s).imp_right (⟨.rxEnable stop start dur, ·⟩)
  case startRx => exact (startRx_receiver s).imp_right (⟨.startRx, ·⟩)
  case pibGet => exact .inl (pibGet_keepsReceiver _ s)
  case hdrEncode => exact .inl ((KeepsReceiver.refl s).answer _)
  case hdrDecode => exact .inl ((KeepsReceiver.refl s).answer _)
  case frameParse => exact .inl ((KeepsReceiver.refl s).answer _)
  case frameBuild => exact .inl ((KeepsReceiver.refl s).answer _)
  case classify => exact .inl ((KeepsReceiver.refl s).answer _)
  case dataReq => exact .inl (dataReq_keepsReceiver _ _ _ _ _ s)
  case ccaResult => exact .inl (ccaResult_keepsReceiver _ _ s)
  case txDone => exact .inl (txDone_keepsReceiver _ s)
  case ackRx => exact .inl (ackRx_keepsReceiver _ s)
  case indRelease => exact .inl (indRelease_keepsReceiver _ _ s)
  case purge => exact .inl (purge_keepsReceiver _ s)
  case isRxEnabled => exact .inl (isRxEnabled_keepsReceiver s)

theorem exec_keeps_receiverDecided {i : Instr} {s t : State} (h : exec i s = .next t) (hs : ReceiverDecided s) :
    ReceiverDecided t := by
  intro hon
  obtain hkeep | ⟨-, hdrive⟩ := exec_receiver h hon
  · exact hkeep.decided hs hon
  · exact hdrive.decided hon

/-- The operation word is legal and executed, or illegal and refused; taking it from the port reads no register. -/
theorem step_keeps_receiverDecided {s t : State} (h : step s = .next t) (hs : ReceiverDecided s) :
    ReceiverDecided t := by
  unfold step at h
  split at h
  · cases h
  · next op rest _ =>
    have htaken : ReceiverDecided (s.takeOp op rest) := hs
    split at h
    · exact exec_keeps_receiverDecided h htaken
    · cases h
      exact (refuse_keepsReceiver _).decided htaken

/-- What a step keeps, a run keeps. -/
theorem run_keeps {M : Host.Core} {P : M.State → Prop} (hstep : ∀ s t, M.step s = .next t → P s → P t) {k : Nat}
    {s t : M.State} (h : M.run k s = .next t) (hs : P s) : P t := by
  induction k generalizing s with
  | zero =>
    cases h
    exact hs
  | succ k ih =>
    unfold Host.Core.run at h
    split at h
    · next u hu => exact ih h (hstep s u hu hs)
    · cases h
    · cases h

theorem startRx_inputs (s : State) :
    (startRx s).pib.rxOnWhenIdle = s.pib.rxOnWhenIdle ∧ (startRx s).windowActive = s.windowActive := by
  unfold startRx
  split <;> exact ⟨rfl, rfl⟩

/-- An operation that changes an input of an ON block is one of R258's four, and applies the decision. -/
theorem drives_of_input_changed {i : Instr} {s t : State} (hs : s.life = .on) (ht : t.life = .on)
    (h : exec i s = .next t)
    (hne : t.pib.rxOnWhenIdle ≠ s.pib.rxOnWhenIdle ∨ t.windowActive ≠ s.windowActive) :
    (i = .reset ∨ (∃ v, i = .pibSet 0x52 v) ∨ (∃ stop start dur, i = .rxEnable stop start dur) ∨ ∃ n, i = .tick n) ∧
      DrivesReceiver s t := by
  obtain hkeep | ⟨hi, hdrive⟩ := exec_receiver h ht
  · exact absurd hne (not_or_intro (not_not_intro hkeep.policy) (not_not_intro hkeep.window))
  · refine ⟨?_, hdrive⟩
    rw [hs] at hi
    cases hi with
    | startRx =>
      cases h
      obtain ⟨hpolicy, hwindow⟩ := startRx_inputs s
      exact absurd hne (not_or_intro (not_not_intro hpolicy) (not_not_intro hwindow))
    | reset => exact .inl rfl
    | pibSet v => exact .inr (.inl ⟨v, rfl⟩)
    | rxEnable stop start dur => exact .inr (.inr (.inl ⟨stop, start, dur, rfl⟩))
    | tick n => exact .inr (.inr (.inr ⟨n, rfl⟩))

/-- Settles O52: a block that is OFF has the invariant, so INIT establishes it as every operation keeps it; a run keeps it
by induction; and an input changes only under an operation that drives the receiver. -/
theorem receiverFollowsTheDecision : Obligations.ReceiverFollowsTheDecision := by
  refine ⟨fun ih s hoff => ⟨_, rfl, ?_⟩, fun k s t hs hrun => ?_, fun i s t hs ht h hne => ?_⟩
  · have hdecided : ReceiverDecided s := fun hon => nomatch hoff.symm.trans hon
    exact exec_keeps_receiverDecided (i := .init ih) rfl hdecided
  · exact run_keeps (M := Sys2Proof.core) (P := ReceiverDecided) (fun _ _ => step_keeps_receiverDecided) hrun hs
  · obtain ⟨hi, hdrive⟩ := drives_of_input_changed hs ht h hne
    exact ⟨hi, hdrive.driven⟩

end Sys2Proof
end

section
/-! PROOFS. The refusal table (spec/60_exceptions.md R281): the block's lifecycle state, or the engine's, in which each
operation is refused. -/

namespace Sys2Proof

open Machine

/-! ## The lifecycle operations -/

theorem init_of_life_ne_off {c : Params} {s : State} (h : s.life ≠ .off) : init c s = refuse s := if_neg h

theorem deinit_of_failed {s : State} (h : s.life = .failed) : deinit s = refuse s := by simp only [deinit, h]

/-! ## The radio's answers, which the engine must be waiting for -/

theorem ccaResult_of_not_waiting {c : Params} {busy : Bool} {s : State}
    (h : ¬(s.life = .on ∧ s.eng.st = .ccaWait)) : ccaResult c busy s = refuse s := if_neg h

theorem txDone_of_not_waiting {c : Params} {s : State} (h : ¬(s.life = .on ∧ s.eng.st = .txWait)) :
    txDone c s = refuse s := if_neg h

theorem ackRx_of_not_waiting {seq : Byte} {s : State}
    (h : ¬(s.life = .on ∧ s.eng.st = .ackWait ∧ seq = s.eng.seq)) : ackRx seq s = refuse s := if_neg h

/-! ## A block that is not ON -/

/-- An operation outside the codec, INIT and DEINIT apart, asks for a block that is ON before anything else. -/
theorem exec_of_life_ne_on {i : Instr} {s : State} (hon : s.life ≠ .on) (hcodec : isCodec i = false)
    (hinit : ∀ ih, i ≠ .init ih) (hdeinit : i ≠ .deinit) : exec i s = .next (refuse s) := by
  cases i with
  | init ih => exact absurd rfl (hinit ih)
  | deinit => exact absurd rfl hdeinit
  | hdrEncode => cases hcodec
  | hdrDecode => cases hcodec
  | frameParse => cases hcodec
  | frameBuild => cases hcodec
  | classify => cases hcodec
  | ccaResult => exact congrArg Host.Outcome.next (ccaResult_of_not_waiting fun h => hon h.1)
  | txDone => exact congrArg Host.Outcome.next (txDone_of_not_waiting fun h => hon h.1)
  | ackRx => exact congrArg Host.Outcome.next (ackRx_of_not_waiting fun h => hon h.1)
  | reset => exact congrArg Host.Outcome.next (if_neg hon)
  | pibSet => exact congrArg Host.Outcome.next (if_neg hon)
  | pibGet => exact congrArg Host.Outcome.next (if_neg hon)
  | dataReq => exact congrArg Host.Outcome.next (if_neg hon)
  | tick => exact congrArg Host.Outcome.next (if_neg hon)
  | indRelease => exact congrArg Host.Outcome.next (if_neg hon)
  | purge => exact congrArg Host.Outcome.next (if_neg hon)
  | rxEnable => exact congrArg Host.Outcome.next (if_neg hon)
  | isRxEnabled => exact congrArg Host.Outcome.next (if_neg hon)
  | startRx => exact congrArg Host.Outcome.next (if_neg hon)

/-- Settles O9: each row of the table is the refusing branch of its operation, and what a codec operation answers, which
`codecIsStateless` gives, is handled. -/
theorem refusalTable : Obligations.RefusalTable := by
  refine ⟨?illegal, ?init, ?deinit, ?notOn, ?ccaResult, ?txDone, ?ackRx, ?codec⟩
  case illegal => exact fun _ _ _ _ hport he => step_of_illegal hport he
  case init => exact fun _ _ hoff => congrArg Host.Outcome.next (init_of_life_ne_off hoff)
  case deinit => exact fun _ hfailed => congrArg Host.Outcome.next (deinit_of_failed hfailed)
  case notOn => exact fun _ _ => exec_of_life_ne_on
  case ccaResult => exact fun _ _ hst => congrArg Host.Outcome.next (ccaResult_of_not_waiting fun h => hst h.2)
  case txDone => exact fun _ hst => congrArg Host.Outcome.next (txDone_of_not_waiting fun h => hst h.2)
  case ackRx =>
    intro s seq hst
    refine congrArg Host.Outcome.next (ackRx_of_not_waiting ?_)
    rintro ⟨-, hwait, hseq⟩
    exact hst.elim (· hwait) (· hseq)
  case codec =>
    intro s i hcodec
    obtain ⟨r, hhandled, hexec⟩ := codecIsStateless i s.dataIn hcodec
    exact ⟨r, hhandled, hexec s rfl⟩

end Sys2Proof
end

section
/-! PROOFS. RESET in mid-activity (spec/70_reset_and_hazards.md R314, R322): the whole next state, and an idle engine that
refuses the radio's late answers. -/

namespace Sys2Proof

open Machine

/-- In ON, RESET clears the block to the PIB defaults, drives the receiver by the combined decision, which with no window is
`rxOnWhenIdle`, and confirms (R114). -/
theorem resetBlock_of_on {c : Params} {s : State} (hon : s.life = .on) :
    resetBlock c s = { s with
      pib := c.pibDefault, eng := Engine.idle, queue := [], windowActive := false, windowTimer := 0,
      radioRx := c.pibDefault.rxOnWhenIdle,
      events := s.events ++ [.radioRx c.pibDefault.rxOnWhenIdle, .confReset .success],
      responses := s.responses ++ [⟨true, 0, []⟩] } := by
  have hrx : rxOn (clearBlock c.pibDefault s) = c.pibDefault.rxOnWhenIdle := Bool.or_false _
  have hevents (e e' : Event) : s.events ++ [e] ++ [e'] = s.events ++ [e, e'] := List.append_assoc ..
  rw [resetBlock, if_pos hon, applyRx, hrx, ← hevents]
  rfl

/-- An idle engine waits for no answer of the radio: each one is refused (R322). -/
theorem exec_radioAnswer_of_idle {i : Instr} {s : State} (hidle : s.eng.st = .idle)
    (hi : (∃ b, i = .ccaResult b) ∨ i = .txDone ∨ ∃ q, i = .ackRx q) : exec i s = .next (refuse s) := by
  obtain ⟨b, rfl⟩ | rfl | ⟨q, rfl⟩ := hi
  · exact congrArg Host.Outcome.next (ccaResult_of_not_waiting fun ⟨_, hwait⟩ => nomatch hidle.symm.trans hwait)
  · exact congrArg Host.Outcome.next (txDone_of_not_waiting fun ⟨_, hwait⟩ => nomatch hidle.symm.trans hwait)
  · exact congrArg Host.Outcome.next (ackRx_of_not_waiting fun ⟨_, hwait, _⟩ => nomatch hidle.symm.trans hwait)

/-- Settles O14: the next state is that of `resetBlock_of_on`, and its engine is idle. -/
theorem resetEndsAllActivity : Obligations.ResetEndsAllActivity := by
  intro s hon
  exact ⟨_, congrArg Host.Outcome.next (resetBlock_of_on hon), rfl, fun _ hi => exec_radioAnswer_of_idle rfl hi⟩

end Sys2Proof
end

section
/-! PROOFS. The order of SETs that moves the pair (minBE, maxBE) (spec/70_reset_and_hazards.md R324): PIB_SET checks each of
the two against the other's current value (R116). -/

namespace Sys2Proof

open Machine

/-! ## PIB_SET of a legal and of an illegal value (R115) -/

theorem writeReg_life (r : PibReg) (v : Half) (s : State) : (writeReg r v s).life = s.life := by
  unfold writeReg
  split <;> rfl

/-- PIB_SET of a register that can be set, by the legality of the value. -/
theorem pibSet_of_attrReg {s : State} {attr : Byte} {v : Half} {r : PibReg} (hon : s.life = .on)
    (hr : attrReg attr = some r) (hdsn : r ≠ .dsn) :
    pibSet attr v s = if legalPib s.pib r v then ((writeReg r v s).emit (.confSet attr .success)).done
      else (s.emit (.confSet attr .invalidParameter)).done := by
  rw [pibSet, if_pos hon, hr]
  cases r
  case dsn => exact absurd rfl hdsn
  all_goals rfl

theorem pibSet_of_legal {s : State} {attr : Byte} {v : Half} {r : PibReg} (hon : s.life = .on)
    (hr : attrReg attr = some r) (hlegal : legalPib s.pib r v = true) :
    pibSet attr v s = ((writeReg r v s).emit (.confSet attr .success)).done := by
  rw [pibSet_of_attrReg hon hr (ne_dsn_of_legalPib hlegal), if_pos hlegal]

theorem exec_pibSet_of_illegal {s : State} {attr : Byte} {v : Half} {r : PibReg} (hon : s.life = .on)
    (hr : attrReg attr = some r) (hdsn : r ≠ .dsn) (hillegal : ¬legalPib s.pib r v = true) :
    exec (.pibSet attr v) s = .next { s with
      events := s.events ++ [.confSet attr .invalidParameter], responses := s.responses ++ [⟨true, 0, []⟩] } :=
  congrArg Host.Outcome.next ((pibSet_of_attrReg hon hr hdsn).trans (if_neg hillegal))

/-- Two SETs in a row, the second value legal against what the first one wrote, write both registers. -/
theorem exec_pibSet_pibSet {s : State} {attr attr' : Byte} {v v' : Half} {r r' : PibReg} (hon : s.life = .on)
    (hr : attrReg attr = some r) (hr' : attrReg attr' = some r') (hlegal : legalPib s.pib r v = true)
    (hlegal' : legalPib (writePib s.pib r v) r' v' = true) :
    ∃ t u, exec (.pibSet attr v) s = .next t ∧ exec (.pibSet attr' v') t = .next u ∧
      u.pib = writePib (writePib s.pib r v) r' v' := by
  have hfirst := pibSet_of_legal hon hr hlegal
  have hpib : (pibSet attr v s).pib = writePib s.pib r v := by rw [hfirst]; exact writeReg_pib r v s
  have hon' : (pibSet attr v s).life = .on := by rw [hfirst]; exact (writeReg_life r v s).trans hon
  refine ⟨_, _, rfl, rfl, ?_⟩
  rw [pibSet_of_legal hon' hr' (hpib ▸ hlegal'), ← hpib]
  exact writeReg_pib r' v' _

/-! ## The pair (minBE, maxBE) -/

theorem legalPib_minBE_iff (p : Pib) (a : BitVec 4) :
    legalPib p .minBE (a.setWidth 16) = true ↔ a.toNat ≤ p.maxBE.toNat := by
  rw [legalPib, decide_eq_true_iff, BitVec.toNat_setWidth_of_le (by decide)]

theorem legalPib_maxBE_iff (p : Pib) (b : BitVec 4) :
    legalPib p .maxBE (b.setWidth 16) = true ↔ p.minBE.toNat ≤ b.toNat ∧ b.toNat ≤ 8 := by
  rw [legalPib, Bool.and_eq_true, decide_eq_true_iff, decide_eq_true_iff, BitVec.toNat_setWidth_of_le (by decide)]

theorem writePib_minBE (p : Pib) (a : BitVec 4) : writePib p .minBE (a.setWidth 16) = { p with minBE := a } := by
  rw [writePib, BitVec.setWidth_setWidth_of_le _ (by decide), BitVec.setWidth_eq]

theorem writePib_maxBE (p : Pib) (b : BitVec 4) : writePib p .maxBE (b.setWidth 16) = { p with maxBE := b } := by
  rw [writePib, BitVec.setWidth_setWidth_of_le _ (by decide), BitVec.setWidth_eq]

/-- `maxBE` first is right when the new pair's upper bound is not below the current `minBE`. -/
theorem exec_set_maxBE_minBE {s : State} {a b : BitVec 4} (hon : s.life = .on) (hmin : s.pib.minBE.toNat ≤ b.toNat)
    (hab : a.toNat ≤ b.toNat) (hb : b.toNat ≤ 8) :
    ∃ t u, exec (.pibSet 0x57 (b.setWidth 16)) s = .next t ∧ exec (.pibSet 0x4F (a.setWidth 16)) t = .next u ∧
      u.pib = { s.pib with minBE := a, maxBE := b } := by
  have hlegal' : legalPib (writePib s.pib .maxBE (b.setWidth 16)) .minBE (a.setWidth 16) = true := by
    rw [writePib_maxBE, legalPib_minBE_iff]
    exact hab
  have hset := exec_pibSet_pibSet (attr := 0x57) (attr' := 0x4F) hon rfl rfl
    ((legalPib_maxBE_iff s.pib b).mpr ⟨hmin, hb⟩) hlegal'
  rwa [writePib_maxBE, writePib_minBE] at hset

/-- `minBE` first is right when the new pair's lower bound is not above the current `maxBE`. -/
theorem exec_set_minBE_maxBE {s : State} {a b : BitVec 4} (hon : s.life = .on) (hmax : a.toNat ≤ s.pib.maxBE.toNat)
    (hab : a.toNat ≤ b.toNat) (hb : b.toNat ≤ 8) :
    ∃ t u, exec (.pibSet 0x4F (a.setWidth 16)) s = .next t ∧ exec (.pibSet 0x57 (b.setWidth 16)) t = .next u ∧
      u.pib = { s.pib with minBE := a, maxBE := b } := by
  have hlegal' : legalPib (writePib s.pib .minBE (a.setWidth 16)) .maxBE (b.setWidth 16) = true := by
    rw [writePib_minBE, legalPib_maxBE_iff]
    exact ⟨hab, hb⟩
  have hset := exec_pibSet_pibSet (attr := 0x4F) (attr' := 0x57) hon rfl rfl
    ((legalPib_minBE_iff s.pib a).mpr hmax) hlegal'
  rwa [writePib_minBE, writePib_maxBE] at hset

/-- Settles O21: by R25 a lower bound above `maxBE` leaves the new pair above `minBE`, and an upper bound below `minBE` leaves
it below `maxBE`, so one order's first check holds where the other's fails. -/
theorem backoffBoundsMoveInTheRightOrder : Obligations.BackoffBoundsMoveInTheRightOrder := by
  intro s a b hon hwf hab hb
  simp only [Pib.wf, Bool.and_eq_true, decide_eq_true_eq] at hwf
  obtain ⟨⟨hpair, -⟩, -⟩ := hwf
  refine ⟨fun hup => ⟨?maxFirst, ?minFails⟩, fun hdown => ⟨?minFirst, ?maxFails⟩⟩
  case maxFirst => exact exec_set_maxBE_minBE hon (by omega) hab hb
  case minFails =>
    refine exec_pibSet_of_illegal hon (r := .minBE) rfl (by decide) ?_
    rw [legalPib_minBE_iff]
    omega
  case minFirst => exact exec_set_minBE_maxBE hon (by omega) hab hb
  case maxFails =>
    refine exec_pibSet_of_illegal hon (r := .maxBE) rfl (by decide) ?_
    rw [legalPib_maxBE_iff]
    omega

end Sys2Proof
end

section
/-! PROOFS. The operation word: encode and decode as inverses (spec/30_encoding.md R83 to R86), the opcode table's rows as
the legal words (R85), and the byte transport (spec/20_memory.md R63). -/

namespace Sys2Proof

open Machine

/-- Settles O1: it is `decode_encode`, that every field of a word reads back as its operand. -/
theorem decodeOfEncodeIsTheOperation : Obligations.DecodeOfEncodeIsTheOperation := decode_encode

/-- Settles O2: it is `encode_of_decode`, that the fields a row reads cover every bit it does not reserve. -/
theorem encodeOfDecodeIsTheWord : Obligations.EncodeOfDecodeIsTheWord := fun _ _ => encode_of_decode

/-- Settles O4: each word is evaluated by the decoder. -/
theorem specExampleWordsDecode : Obligations.SpecExampleWordsDecode := by
  refine ⟨?_, ?_, ?_, ?_, ?_, ?_, ?_, ?_, ?_, ?_, ?_, ?_⟩ <;> rfl

/-! ## The rows of the opcode table (R85) -/

/-- The word of every operation has the fixed bits of its mnemonic's row. -/
theorem encodingRow (i : Instr) : Laws.EncodingRow.Statement i := by
  cases i with
  | init ih => exact Laws.EncodingRow.init ih
  | deinit => exact Laws.EncodingRow.deinit
  | reset => exact Laws.EncodingRow.reset
  | pibSet attr value => exact Laws.EncodingRow.pibSet attr value
  | pibGet attr => exact Laws.EncodingRow.pibGet attr
  | hdrEncode code len => exact Laws.EncodingRow.hdrEncode code len
  | hdrDecode b0 b1 b2 => exact Laws.EncodingRow.hdrDecode b0 b1 b2
  | frameParse dir ch => exact Laws.EncodingRow.frameParse dir ch
  | frameBuild code dir ch => exact Laws.EncodingRow.frameBuild code dir ch
  | classify code ch => exact Laws.EncodingRow.classify code ch
  | dataReq handle len ind ack => exact Laws.EncodingRow.dataReq handle len ind ack
  | tick n => exact Laws.EncodingRow.tick n
  | ccaResult busy => exact Laws.EncodingRow.ccaResult busy
  | txDone => exact Laws.EncodingRow.txDone
  | ackRx seq => exact Laws.EncodingRow.ackRx seq
  | indRelease handle => exact Laws.EncodingRow.indRelease handle
  | purge handle => exact Laws.EncodingRow.purge handle
  | rxEnable stop start dur => exact Laws.EncodingRow.rxEnable stop start dur
  | isRxEnabled => exact Laws.EncodingRow.isRxEnabled
  | startRx => exact Laws.EncodingRow.startRx

/-- The fixed bits of a row but RX_ENABLE's: the whole code, and the reserved bits of the code's format, which are 0. -/
def OpRow.FixesCode (r : OpRow) : Prop :=
  opcOf r.mask = 0xFF#8 ∧ ∀ w, ∃ f i, opcRow (opcOf r.value) w = some (f, i) ∧
    r.mask &&& f.reserved = f.reserved ∧ r.value &&& f.reserved = 0#32

/-- The fixed bits of RX_ENABLE's row: the six bits its four codes share. -/
def OpRow.FixesRxEnable (r : OpRow) : Prop :=
  r.mask.extractLsb' 26 6 = 0b111111#6 ∧ r.value.extractLsb' 26 6 = 0b010000#6

theorem opcodeTable_fixes : ∀ r ∈ opcodeTable, OpRow.FixesCode r ∨ OpRow.FixesRxEnable r := by
  simp only [opcodeTable, List.forall_mem_append, List.forall_mem_cons, List.not_mem_nil, false_imp_iff, implies_true,
    and_true]
  have hrow : ∀ (name : String) (mask value : Word) (fields : List (String × Nat × Nat)) (c : Byte) (f : Format),
      opcOf mask = 0xFF#8 → opcOf value = c → (∀ w, ∃ i, opcRow c w = some (f, i)) →
      mask &&& f.reserved = f.reserved → value &&& f.reserved = 0#32 → OpRow.FixesCode ⟨name, mask, value, fields⟩ := by
    rintro _ _ _ _ c f hmask rfl hread hres hval
    refine ⟨hmask, fun w => ?_⟩
    obtain ⟨i, hi⟩ := hread w
    exact ⟨f, i, hi, hres, hval⟩
  refine ⟨⟨⟨⟨?_, ?_, ?_, ?_, ?_⟩, ?_, ?_, ?_, ?_, ?_⟩, ?_, ?_, ?_, ?_, ?_⟩, ?_, ?_, ?_, ?_, ?_⟩
  case refine_18 => exact .inr ⟨rfl, rfl⟩
  all_goals exact .inl (hrow _ _ _ _ _ _ rfl rfl (fun _ => ⟨_, rfl⟩) rfl rfl)

/-- A word with a row's fixed bits has the row's code and no reserved bit set, so it decodes. -/
theorem decode_of_fixesCode {r : OpRow} (hr : OpRow.FixesCode r) {w : Word} (hw : w &&& r.mask = r.value) :
    ∃ i, decode w = .ok i := by
  obtain ⟨hmask, hread⟩ := hr
  obtain ⟨f, i, hrow, hres, hval⟩ := hread w
  have hcode : opcOf w = opcOf r.value := by
    have hand : opcOf w &&& opcOf r.mask = opcOf r.value := by rw [← hw]; exact BitVec.extractLsb'_and.symm
    rwa [hmask, show 0xFF#8 = BitVec.allOnes 8 from rfl, BitVec.and_allOnes] at hand
  refine ⟨i, decode_eq_ok_iff.mpr (.inr ⟨f, hcode ▸ hrow, ?_⟩)⟩
  rw [← hres, ← BitVec.and_assoc, hw, hval]

theorem decode_of_fixesRxEnable {r : OpRow} (hr : OpRow.FixesRxEnable r) {w : Word} (hw : w &&& r.mask = r.value) :
    ∃ i, decode w = .ok i := by
  obtain ⟨hmask, hval⟩ := hr
  refine ⟨_, decode_eq_ok_iff.mpr (.inl ⟨?_, rfl⟩)⟩
  rwa [← hw, BitVec.extractLsb'_and, hmask, show 0b111111#6 = BitVec.allOnes 6 from rfl, BitVec.and_allOnes] at hval

/-- Settles O3: a legal word is the word of its operation, which has its row's fixed bits; and a row's fixed bits are all
that decoding asks of a word. -/
theorem legalWordsAreTheTableRows : Obligations.LegalWordsAreTheTableRows := by
  refine fun w => ⟨fun i hi => ?_, ?_⟩
  · obtain rfl := encode_of_decode hi
    exact encodingRow i
  · rintro ⟨r, hr, hcovers⟩
    have hw : w &&& r.mask = r.value := of_decide_eq_true hcovers
    obtain hfix | hfix := opcodeTable_fixes r hr
    · exact decode_of_fixesCode hfix hw
    · exact decode_of_fixesRxEnable hfix hw

/-! ## The byte transport (R63) -/

/-- The four bytes of a word, put back in their places, are the word. -/
theorem wordOfBytes_extractLsb' (w : Word) :
    wordOfBytes (w.extractLsb' 0 8) (w.extractLsb' 8 8) (w.extractLsb' 16 8) (w.extractLsb' 24 8) = w := by
  rw [wordOfBytes]
  simp only [fieldAt_extractLsb', ← BitVec.and_or_distrib_left]
  exact BitVec.and_allOnes

/-- Settles O6: the transport gives the word back, and `decode_encode` its operation. -/
theorem littleEndianTransportDecodes : Obligations.LittleEndianTransportDecodes := by
  intro i rest
  simp only [wordBytes, List.cons_append, List.nil_append, decodeBytes, wordOfBytes_extractLsb', decode_encode,
    Except.map]

end Sys2Proof
end

section
/-! PROOFS. What each operation can do, said once: an operation is refused, or one of the listed cases holds. The proofs
about operations take these cases and do not unfold the operations again. -/

namespace Sys2Proof

open Machine

/-! ## The lifecycle operations (R110 to R114) -/

theorem init_cases (c : Params) (s : State) :
    (s.life ≠ .off ∧ init c s = refuse s) ∨
    (s.life = .off ∧ drawInit c s = true ∧
      init c s = (applyRx ((clearBlock c.pibDefault (s.setDraws (s.draws + 1))).setLife .on)).respond 1#32) ∨
    (s.life = .off ∧ drawInit c s = false ∧ init c s = ((s.setDraws (s.draws + 1)).setLife .failed).respond 0#32) := by
  unfold init
  split_ifs with hoff hdraw
  · exact .inr (.inl ⟨hoff, hdraw, rfl⟩)
  · exact .inr (.inr ⟨hoff, Bool.eq_false_iff.mpr hdraw, rfl⟩)
  · exact .inl ⟨hoff, rfl⟩

theorem deinit_cases (s : State) :
    (s.life = .failed ∧ deinit s = refuse s) ∨ (s.life = .off ∧ deinit s = s.respond 0#32) ∨
    (s.life = .on ∧ deinit s = ((clearBlock Pib.zero s).setLife .off).done) := by
  unfold deinit
  split
  · next h => exact .inl ⟨h, rfl⟩
  · next h => exact .inr (.inl ⟨h, rfl⟩)
  · next h => exact .inr (.inr ⟨h, rfl⟩)

theorem resetBlock_cases (c : Params) (s : State) :
    (s.life ≠ .on ∧ resetBlock c s = refuse s) ∨
    (s.life = .on ∧ resetBlock c s = ((applyRx (clearBlock c.pibDefault s)).emit (.confReset .success)).done) := by
  unfold resetBlock
  split_ifs with hon
  · exact .inr ⟨hon, rfl⟩
  · exact .inl ⟨hon, rfl⟩

/-! ## PIB_GET (R117) -/

theorem pibGet_cases (attr : Byte) (s : State) :
    (s.life ≠ .on ∧ pibGet attr s = refuse s) ∨
    (s.life = .on ∧ ∃ st v, pibGet attr s = (s.emit (.confGet attr st v)).done) := by
  unfold pibGet
  split_ifs with hon
  · split
    · exact .inr ⟨hon, _, _, rfl⟩
    · exact .inr ⟨hon, _, _, rfl⟩
  · exact .inl ⟨hon, rfl⟩

/-! ## The engine's operations (R170 to R173, R183 to R186) -/

theorem enqueue_cases (c : Params) (h l : Byte) (a : Bool) (s : State) :
    (s.queue.length = c.indirectDepth ∧ enqueue c h l a s = s.emit (.confData h .transactionOverflow)) ∨
    (s.queue.length ≠ c.indirectDepth ∧ s.pib.transactionPersistenceTime = 0 ∧
      enqueue c h l a s = s.emit (.confData h .transactionExpired)) ∨
    (s.queue.length ≠ c.indirectDepth ∧ s.pib.transactionPersistenceTime ≠ 0 ∧
      enqueue c h l a s = s.setQueue (s.queue ++ [⟨h, l, a, s.pib.transactionPersistenceTime⟩])) := by
  unfold enqueue
  split_ifs with hfull hzero
  · exact .inl ⟨hfull, rfl⟩
  · exact .inr (.inl ⟨hfull, hzero, rfl⟩)
  · exact .inr (.inr ⟨hfull, hzero, rfl⟩)

/-- DATA_REQ: refused, oversized, held, accepted, or turned away by a busy engine. -/
theorem dataReq_cases (c : Params) (h l : Byte) (ind ack : Bool) (s : State) :
    (s.life ≠ .on ∧ dataReq c h l ind ack s = refuse s) ∨
    (s.life = .on ∧ c.maxFrameLen.toNat < l.toNat ∧
      dataReq c h l ind ack s = (s.emit (.confData h .invalidParameter)).done) ∨
    (s.life = .on ∧ l.toNat ≤ c.maxFrameLen.toNat ∧ ind = true ∧
      dataReq c h l ind ack s = (enqueue c h l ack s).done) ∨
    (s.life = .on ∧ l.toNat ≤ c.maxFrameLen.toNat ∧ ind = false ∧ s.eng.st = .idle ∧
      dataReq c h l ind ack s = (startRequest c h l ack s).done) ∨
    (s.life = .on ∧ l.toNat ≤ c.maxFrameLen.toNat ∧ ind = false ∧ s.eng.st ≠ .idle ∧
      dataReq c h l ind ack s = (s.emit (.confData h .busy)).done) := by
  unfold dataReq
  split_ifs with hon hlen hind hidle
  · exact .inr (.inl ⟨hon, hlen, rfl⟩)
  · exact .inr (.inr (.inl ⟨hon, Nat.le_of_not_lt hlen, hind, rfl⟩))
  · exact .inr (.inr (.inr (.inl ⟨hon, Nat.le_of_not_lt hlen, Bool.eq_false_iff.mpr hind, hidle, rfl⟩)))
  · exact .inr (.inr (.inr (.inr ⟨hon, Nat.le_of_not_lt hlen, Bool.eq_false_iff.mpr hind, hidle, rfl⟩)))
  · exact .inl ⟨hon, rfl⟩

theorem tick_cases (c : Params) (n : Symbols) (s : State) :
    (s.life ≠ .on ∧ tick c n s = refuse s) ∨ (s.life = .on ∧ tick c n s = (ticks c n.toNat s).done) := by
  unfold tick
  split_ifs with hon
  · exact .inr ⟨hon, rfl⟩
  · exact .inl ⟨hon, rfl⟩

theorem ccaResult_cases (c : Params) (busy : Bool) (s : State) :
    (¬(s.life = .on ∧ s.eng.st = .ccaWait) ∧ ccaResult c busy s = refuse s) ∨
    (s.life = .on ∧ s.eng.st = .ccaWait ∧ busy = true ∧ ccaLimit c s.eng ≤ (busyCca c s).eng.NB.toNat ∧
      ccaResult c busy s = (finish .channelAccessFailure (busyCca c s)).done) ∨
    (s.life = .on ∧ s.eng.st = .ccaWait ∧ busy = true ∧ (busyCca c s).eng.NB.toNat < ccaLimit c s.eng ∧
      ccaResult c busy s = (startBackoff c (busyCca c s)).done) ∨
    (s.life = .on ∧ s.eng.st = .ccaWait ∧ busy = false ∧ ccaResult c busy s = (transmit s).done) := by
  unfold ccaResult
  split_ifs with hwait hbusy hlimit
  · exact .inr (.inl ⟨hwait.1, hwait.2, hbusy, hlimit, rfl⟩)
  · exact .inr (.inr (.inl ⟨hwait.1, hwait.2, hbusy, Nat.lt_of_not_le hlimit, rfl⟩))
  · exact .inr (.inr (.inr ⟨hwait.1, hwait.2, Bool.eq_false_iff.mpr hbusy, rfl⟩))
  · exact .inl ⟨hwait, rfl⟩

theorem txDone_cases (c : Params) (s : State) :
    (¬(s.life = .on ∧ s.eng.st = .txWait) ∧ txDone c s = refuse s) ∨
    (s.life = .on ∧ s.eng.st = .txWait ∧ s.eng.ackReq = false ∧ txDone c s = (finish .success s).done) ∨
    (s.life = .on ∧ s.eng.st = .txWait ∧ s.eng.ackReq = true ∧ s.eng.sAckWait = 0 ∧
      txDone c s = (ackFail c s).done) ∨
    (s.life = .on ∧ s.eng.st = .txWait ∧ s.eng.ackReq = true ∧ s.eng.sAckWait ≠ 0 ∧
      txDone c s = (s.setEng { s.eng with ackTimer := s.eng.sAckWait, st := .ackWait }).done) := by
  unfold txDone
  split_ifs with hwait hack hzero
  · exact .inr (.inl ⟨hwait.1, hwait.2, hack, rfl⟩)
  · exact .inr (.inr (.inl ⟨hwait.1, hwait.2, eq_true_of_ne_false hack, hzero, rfl⟩))
  · exact .inr (.inr (.inr ⟨hwait.1, hwait.2, eq_true_of_ne_false hack, hzero, rfl⟩))
  · exact .inl ⟨hwait, rfl⟩

theorem ackRx_cases (seq : Byte) (s : State) :
    (¬(s.life = .on ∧ s.eng.st = .ackWait ∧ seq = s.eng.seq) ∧ ackRx seq s = refuse s) ∨
    (s.life = .on ∧ s.eng.st = .ackWait ∧ seq = s.eng.seq ∧ ackRx seq s = (finish .success s).done) := by
  unfold ackRx
  split_ifs with hwait
  · exact .inr ⟨hwait.1, hwait.2.1, hwait.2.2, rfl⟩
  · exact .inl ⟨hwait, rfl⟩

/-! ## The indirect queue's operations (R222, R224) -/

theorem indRelease_cases (c : Params) (h : Byte) (s : State) :
    (s.life ≠ .on ∧ indRelease c h s = refuse s) ∨
    (s.life = .on ∧ oldest s.queue h = none ∧ indRelease c h s = s.respond 1#32) ∨
    (s.life = .on ∧ (∃ e, oldest s.queue h = some e) ∧ s.eng.st ≠ .idle ∧ indRelease c h s = s.respond 2#32) ∨
    (s.life = .on ∧ s.eng.st = .idle ∧ ∃ e, oldest s.queue h = some e ∧
      indRelease c h s =
        (startRequest c e.handle e.len e.ackReq (s.setQueue (withoutOldest s.queue h))).respond 0#32) := by
  unfold indRelease
  by_cases hon : s.life = .on
  · rw [if_pos hon]
    right
    split
    · next hnone => exact .inl ⟨hon, hnone, rfl⟩
    · next e he =>
      by_cases hidle : s.eng.st = .idle
      · exact .inr (.inr ⟨hon, hidle, e, he, if_pos hidle⟩)
      · exact .inr (.inl ⟨hon, ⟨e, he⟩, hidle, if_neg hidle⟩)
  · exact .inl ⟨hon, if_neg hon⟩

theorem purge_cases (h : Byte) (s : State) :
    (s.life ≠ .on ∧ purge h s = refuse s) ∨
    (s.life = .on ∧ oldest s.queue h = none ∧ purge h s = (s.emit (.confPurge h .invalidHandle)).done) ∨
    (s.life = .on ∧ (∃ e, oldest s.queue h = some e) ∧
      purge h s = ((s.setQueue (withoutOldest s.queue h)).emit (.confPurge h .success)).done) := by
  unfold purge
  split_ifs with hon
  · split
    · next hnone => exact .inr (.inl ⟨hon, hnone, rfl⟩)
    · next e he => exact .inr (.inr ⟨hon, ⟨e, he⟩, rfl⟩)
  · exact .inl ⟨hon, rfl⟩

/-! ## The RX-enable scheduler's operations (R252 to R254) -/

theorem rxEnable_cases (stop start : Bool) (dur : Symbols) (s : State) :
    (s.life ≠ .on ∧ rxEnable stop start dur s = refuse s) ∨
    (s.life = .on ∧ (moveWindow stop start dur s).windowActive = s.windowActive ∧
      rxEnable stop start dur s = ((moveWindow stop start dur s).emit (.confRxEnable .success)).done) ∨
    (s.life = .on ∧ (moveWindow stop start dur s).windowActive ≠ s.windowActive ∧
      rxEnable stop start dur s = ((applyRx (moveWindow stop start dur s)).emit (.confRxEnable .success)).done) := by
  unfold rxEnable
  split_ifs with hon hsame
  · exact .inr (.inl ⟨hon, hsame, rfl⟩)
  · exact .inr (.inr ⟨hon, hsame, rfl⟩)
  · exact .inl ⟨hon, rfl⟩

theorem isRxEnabled_cases (s : State) :
    (s.life ≠ .on ∧ isRxEnabled s = refuse s) ∨ (s.life = .on ∧ isRxEnabled s = s.respond (bitWord (rxOn s))) := by
  unfold isRxEnabled
  split_ifs with hon
  · exact .inr ⟨hon, rfl⟩
  · exact .inl ⟨hon, rfl⟩

theorem startRx_cases (s : State) :
    (s.life ≠ .on ∧ startRx s = refuse s) ∨ (s.life = .on ∧ startRx s = (applyRx s).done) := by
  unfold startRx
  split_ifs with hon
  · exact .inr ⟨hon, rfl⟩
  · exact .inl ⟨hon, rfl⟩

/-- A codec operation only answers, in every lifecycle state (R148). -/
theorem exec_codec {i : Instr} (hi : isCodec i = true) (s : State) :
    ∃ r : Response, exec i s = .next (s.answer r) := by
  obtain ⟨r, -, h⟩ := codecIsStateless i s.dataIn hi
  exact ⟨r, h s rfl⟩

end Sys2Proof
end

section
/-! PROOFS. The step: it runs the operation at the head of the port (spec/20_memory.md R66, R80), which answers once and only
appends events (R82), whoever issued it (R291). -/

namespace Sys2Proof

open Machine

theorem step_of_legal {s : State} {op : PortOp} {rest : List PortOp} {i : Instr} (hport : s.port = op :: rest)
    (hi : decode op.word = .ok i) : step s = exec i (s.takeOp op rest) := by
  simp only [step, hport, hi]

/-- Settles O7: it is the legal branch of a step. -/
theorem stepRunsTheDecodedOperation : Obligations.StepRunsTheDecodedOperation :=
  fun _ _ _ _ hport hi => step_of_legal hport hi

/-- Settles O11: a step reads the word and the buffer of the operation it takes, not its issuer. -/
theorem issuerIsNotRead : Obligations.IssuerIsNotRead := fun _ _ _ _ _ _ => rfl

/-- A step takes an operation off the port, which runs or, illegal, is refused. -/
theorem step_cases {s t : State} (h : step s = .next t) :
    ∃ op rest, s.port = op :: rest ∧
      ((∃ i, decode op.word = .ok i ∧ exec i (s.takeOp op rest) = .next t) ∨
        ((∃ e, decode op.word = .error e) ∧ t = refuse (s.takeOp op rest))) := by
  rcases hport : s.port with _ | ⟨op, rest⟩
  · rw [step, hport] at h
    cases h
  · refine ⟨op, rest, rfl, ?_⟩
    cases hw : decode op.word with
    | ok i => exact .inl ⟨i, rfl, (step_of_legal hport hw).symm.trans h⟩
    | error e => exact .inr ⟨⟨e, rfl⟩, Host.Outcome.next.inj (h.symm.trans (step_of_illegal hport hw))⟩

/-! ## What an operation leaves alone before it answers -/

/-- The port, the buffer, the responses and the lifecycle are as they were, and events are only appended. -/
structure Appends (s t : State) : Prop where
  life : t.life = s.life
  port : t.port = s.port
  dataIn : t.dataIn = s.dataIn
  responses : t.responses = s.responses
  events : ∃ es, t.events = s.events ++ es

/-- One response more, events only appended, and the port and its buffer as they were. -/
structure Answers (s t : State) : Prop where
  port : t.port = s.port
  dataIn : t.dataIn = s.dataIn
  response : ∃ r, t.responses = s.responses ++ [r]
  events : ∃ es, t.events = s.events ++ es

theorem Appends.refl (s : State) : Appends s s := ⟨rfl, rfl, rfl, rfl, [], (List.append_nil _).symm⟩

theorem Appends.trans {s t u : State} (h : Appends s t) (k : Appends t u) : Appends s u := by
  obtain ⟨es, hes⟩ := h.events
  obtain ⟨fs, hfs⟩ := k.events
  exact ⟨k.life.trans h.life, k.port.trans h.port, k.dataIn.trans h.dataIn, k.responses.trans h.responses, es ++ fs,
    by rw [hfs, hes, List.append_assoc]⟩

theorem Appends.of_quiet {s t : State} (hlife : t.life = s.life) (hport : t.port = s.port)
    (hdata : t.dataIn = s.dataIn) (hresp : t.responses = s.responses) (he : t.events = s.events) : Appends s t :=
  ⟨hlife, hport, hdata, hresp, [], he.trans (List.append_nil _).symm⟩

/-- An engine procedure appends: the rest is outside its frame. -/
theorem Appends.of_engine {s t : State} (h : EngineFrame s t) (k : WritesOnlyDsnByTransmit s t) : Appends s t := by
  obtain ⟨es, hes, -⟩ := k.emits
  exact ⟨h.life, h.port, h.dataIn, h.responses, es, hes⟩

theorem Appends.answer {s t : State} (h : Appends s t) (r : Response) : Answers s (t.answer r) :=
  ⟨h.port, h.dataIn, ⟨r, congrArg (· ++ [r]) h.responses⟩, h.events⟩

theorem emit_appends (s : State) (e : Event) : Appends s (s.emit e) := ⟨rfl, rfl, rfl, rfl, [e], rfl⟩

theorem setQueue_appends (s : State) (q : List Entry) : Appends s (s.setQueue q) := .of_quiet rfl rfl rfl rfl rfl

theorem applyRx_appends (s : State) : Appends s (applyRx s) := ⟨rfl, rfl, rfl, rfl, [.radioRx (rxOn s)], rfl⟩

theorem clearBlock_appends (p : Pib) (s : State) : Appends s (clearBlock p s) := .of_quiet rfl rfl rfl rfl rfl

theorem setEng_appends (s : State) (e : Engine) : Appends s (s.setEng e) := .of_quiet rfl rfl rfl rfl rfl

theorem finish_appends (st : Status) (s : State) : Appends s (finish st s) :=
  .of_engine (finish_frame st s) (finish_writes st s)

theorem enqueue_appends (c : Params) (h l : Byte) (a : Bool) (s : State) : Appends s (enqueue c h l a s) := by
  obtain ⟨-, e⟩ | ⟨-, -, e⟩ | ⟨-, -, e⟩ := enqueue_cases c h l a s <;> rw [e]
  · exact emit_appends s _
  · exact emit_appends s _
  · exact setQueue_appends s _

theorem startRequest_appends (c : Params) (h l : Byte) (a : Bool) (s : State) : Appends s (startRequest c h l a s) :=
  .of_engine (startRequest_frame c h l a s) (startRequest_writes c h l a s)

theorem writeReg_appends (r : PibReg) (v : Half) (s : State) : Appends s (writeReg r v s) := by
  have hset : Appends s (s.setPib (writePib s.pib r v)) := .of_quiet rfl rfl rfl rfl rfl
  unfold writeReg
  split
  · exact hset
  · exact hset.trans (applyRx_appends _)

theorem moveWindow_appends (stop start : Bool) (dur : Symbols) (s : State) :
    Appends s (moveWindow stop start dur s) := by
  rw [moveWindow_eq]
  exact .of_quiet rfl rfl rfl rfl rfl

theorem windowTick_appends (s : State) : Appends s (windowTick s) := by
  obtain ⟨-, e⟩ | ⟨-, -, e⟩ | ⟨-, -, e⟩ := windowTick_cases s <;> rw [e]
  · exact .refl s
  · exact (Appends.of_quiet rfl rfl rfl rfl rfl : Appends s (s.setWindow false 0)).trans (applyRx_appends _)
  · exact .of_quiet rfl rfl rfl rfl rfl

theorem oneTick_appends (c : Params) (s : State) : Appends s (oneTick c s) := by
  have hqueue : Appends (engineTick c s) (queueTick (engineTick c s)) := ⟨rfl, rfl, rfl, rfl, _, rfl⟩
  exact ((Appends.of_engine (engineTick_frame c s) (engineTick_writes c s)).trans hqueue).trans (windowTick_appends _)

theorem ticks_appends (c : Params) (n : Nat) (s : State) : Appends s (ticks c n s) :=
  ticks_keep c (Appends s) (fun t h => h.trans (oneTick_appends c t)) n s (.refl s)

/-- An operation other than INIT and DEINIT answers once, and before it does so only appends events and writes registers. -/
theorem exec_appends {i : Instr} {s t : State} (h : exec i s = .next t) (hinit : ∀ ih, i ≠ .init ih)
    (hdeinit : i ≠ .deinit) : ∃ u r, t = u.answer r ∧ Appends s u := by
  have hrefuse : ∃ u r, refuse s = u.answer r ∧ Appends s u := ⟨s, _, rfl, .refl s⟩
  cases i <;> cases h
  case init ih => exact absurd rfl (hinit ih)
  case deinit => exact absurd rfl hdeinit
  case reset =>
    obtain ⟨-, e⟩ | ⟨-, e⟩ := resetBlock_cases Config.platform s <;> rw [e]
    · exact hrefuse
    · exact ⟨_, _, rfl, ((clearBlock_appends _ s).trans (applyRx_appends _)).trans (emit_appends _ _)⟩
  case pibSet attr v =>
    obtain ⟨-, e⟩ | ⟨-, _, -, e⟩ | ⟨-, r, -, -, e⟩ := pibSet_cases attr v s <;> rw [e]
    · exact hrefuse
    · exact ⟨_, _, rfl, emit_appends s _⟩
    · exact ⟨_, _, rfl, (writeReg_appends r v s).trans (emit_appends _ _)⟩
  case pibGet attr =>
    obtain ⟨-, e⟩ | ⟨-, _, _, e⟩ := pibGet_cases attr s <;> rw [e]
    · exact hrefuse
    · exact ⟨_, _, rfl, emit_appends s _⟩
  case hdrEncode => exact ⟨s, _, rfl, .refl s⟩
  case hdrDecode => exact ⟨s, _, rfl, .refl s⟩
  case frameParse => exact ⟨s, _, rfl, .refl s⟩
  case frameBuild => exact ⟨s, _, rfl, .refl s⟩
  case classify => exact ⟨s, _, rfl, .refl s⟩
  case dataReq h l ind ack =>
    obtain ⟨-, e⟩ | ⟨-, -, e⟩ | ⟨-, -, -, e⟩ | ⟨-, -, -, -, e⟩ | ⟨-, -, -, -, e⟩ :=
      dataReq_cases Config.platform h l ind ack s <;> rw [e]
    · exact hrefuse
    · exact ⟨_, _, rfl, emit_appends s _⟩
    · exact ⟨_, _, rfl, enqueue_appends _ h l ack s⟩
    · exact ⟨_, _, rfl, startRequest_appends _ h l ack s⟩
    · exact ⟨_, _, rfl, emit_appends s _⟩
  case tick n =>
    obtain ⟨-, e⟩ | ⟨-, e⟩ := tick_cases Config.platform n s <;> rw [e]
    · exact hrefuse
    · exact ⟨_, _, rfl, ticks_appends _ _ s⟩
  case ccaResult busy =>
    obtain ⟨-, e⟩ | ⟨-, -, -, -, e⟩ | ⟨-, -, -, -, e⟩ | ⟨-, -, -, e⟩ := ccaResult_cases Config.platform busy s <;>
      rw [e]
    · exact hrefuse
    · exact ⟨_, _, rfl, (setEng_appends s _).trans (finish_appends _ (busyCca _ s))⟩
    · exact ⟨_, _, rfl, (setEng_appends s _).trans (.of_engine (startBackoff_frame _ (busyCca _ s)) (startBackoff_writes _ _))⟩
    · exact ⟨_, _, rfl, .of_engine (transmit_frame s) (transmit_writes s)⟩
  case txDone =>
    obtain ⟨-, e⟩ | ⟨-, -, -, e⟩ | ⟨-, -, -, -, e⟩ | ⟨-, -, -, -, e⟩ := txDone_cases Config.platform s <;> rw [e]
    · exact hrefuse
    · exact ⟨_, _, rfl, finish_appends _ s⟩
    · exact ⟨_, _, rfl, .of_engine (ackFail_frame _ s) (ackFail_writes _ s)⟩
    · exact ⟨_, _, rfl, setEng_appends s _⟩
  case ackRx seq =>
    obtain ⟨-, e⟩ | ⟨-, -, -, e⟩ := ackRx_cases seq s <;> rw [e]
    · exact hrefuse
    · exact ⟨_, _, rfl, finish_appends _ s⟩
  case indRelease h =>
    obtain ⟨-, e⟩ | ⟨-, -, e⟩ | ⟨-, -, -, e⟩ | ⟨-, -, en, -, e⟩ := indRelease_cases Config.platform h s <;> rw [e]
    · exact hrefuse
    · exact ⟨_, _, rfl, .refl s⟩
    · exact ⟨_, _, rfl, .refl s⟩
    · exact ⟨_, _, rfl, (setQueue_appends s _).trans (startRequest_appends _ _ _ _ _)⟩
  case purge h =>
    obtain ⟨-, e⟩ | ⟨-, -, e⟩ | ⟨-, -, e⟩ := purge_cases h s <;> rw [e]
    · exact hrefuse
    · exact ⟨_, _, rfl, emit_appends s _⟩
    · exact ⟨_, _, rfl, (setQueue_appends s _).trans (emit_appends _ _)⟩
  case rxEnable stop start dur =>
    obtain ⟨-, e⟩ | ⟨-, -, e⟩ | ⟨-, -, e⟩ := rxEnable_cases stop start dur s <;> rw [e]
    · exact hrefuse
    · exact ⟨_, _, rfl, (moveWindow_appends stop start dur s).trans (emit_appends _ _)⟩
    · exact ⟨_, _, rfl,
        ((moveWindow_appends stop start dur s).trans (applyRx_appends _)).trans (emit_appends _ _)⟩
  case isRxEnabled =>
    obtain ⟨-, e⟩ | ⟨-, e⟩ := isRxEnabled_cases s <;> rw [e]
    · exact hrefuse
    · exact ⟨_, _, rfl, .refl s⟩
  case startRx =>
    obtain ⟨-, e⟩ | ⟨-, e⟩ := startRx_cases s <;> rw [e]
    · exact hrefuse
    · exact ⟨_, _, rfl, applyRx_appends s⟩

theorem refuse_answers (s : State) : Answers s (refuse s) := (Appends.refl s).answer _

theorem init_answers (c : Params) (s : State) : Answers s (init c s) := by
  obtain ⟨-, e⟩ | ⟨-, -, e⟩ | ⟨-, -, e⟩ := init_cases c s <;> rw [e]
  · exact refuse_answers s
  · exact ⟨rfl, rfl, ⟨_, rfl⟩, _, rfl⟩
  · exact ⟨rfl, rfl, ⟨_, rfl⟩, [], (List.append_nil _).symm⟩

theorem deinit_answers (s : State) : Answers s (deinit s) := by
  obtain ⟨-, e⟩ | ⟨-, e⟩ | ⟨-, e⟩ := deinit_cases s <;> rw [e]
  · exact refuse_answers s
  · exact (Appends.refl s).answer _
  · exact ⟨rfl, rfl, ⟨_, rfl⟩, [], (List.append_nil _).symm⟩

/-- Every operation answers once and only appends events (R66, R69, R82). -/
theorem exec_answers {i : Instr} {s t : State} (h : exec i s = .next t) : Answers s t := by
  by_cases hinit : ∃ ih, i = .init ih
  · obtain ⟨ih, rfl⟩ := hinit
    cases h
    exact init_answers _ s
  · by_cases hdeinit : i = .deinit
    · subst hdeinit
      cases h
      exact deinit_answers s
    · obtain ⟨u, r, rfl, hu⟩ := exec_appends h (fun ih hi => hinit ⟨ih, hi⟩) hdeinit
      exact hu.answer r

/-- Settles O10: taking the operation off the port leaves the stream and the responses, and what runs then answers once. -/
theorem oneResponseAndAppendedEvents : Obligations.OneResponseAndAppendedEvents := by
  intro s t h
  obtain ⟨op, rest, hport, hrun⟩ := step_cases h
  have hans : Answers (s.takeOp op rest) t := by
    obtain ⟨i, -, hexec⟩ | ⟨-, rfl⟩ := hrun
    · exact exec_answers hexec
    · exact refuse_answers _
  exact ⟨hans.response, hans.events, op, by rw [hport, hans.port]; rfl, hans.dataIn⟩

end Sys2Proof
end

section
/-! PROOFS. The lifecycle (spec/41_pib_lifecycle.md R110 to R113, spec/10_state.md R22, spec/60_exceptions.md R284). -/

namespace Sys2Proof

open Machine

/-- Settles O12: the two branches of INIT in OFF; with no window the combined decision is the default `rxOnWhenIdle`. -/
theorem initFromOff : Obligations.InitFromOff := by
  intro ih s hoff
  refine congrArg Host.Outcome.next ?_
  have hrx (u : State) : rxOn ((clearBlock Config.pibDefault u).setLife .on) = Config.pibDefault.rxOnWhenIdle :=
    Bool.or_false _
  obtain ⟨h, -⟩ | ⟨-, hdraw, e⟩ | ⟨-, hdraw, e⟩ := init_cases Config.platform s
  · exact absurd hoff h
  · rw [e, if_pos (show Config.initDraw s.draws = true from hdraw), applyRx]
    simp only [Config.platform, hrx]
    rfl
  · rw [e, if_neg (show ¬Config.initDraw s.draws = true from Bool.eq_false_iff.mp hdraw)]
    rfl

/-- Settles O13: the branches of DEINIT in ON and in OFF. -/
theorem deinitTearsDown : Obligations.DeinitTearsDown := by
  refine ⟨fun s hon => congrArg Host.Outcome.next ?_, fun s hoff => congrArg Host.Outcome.next ?_⟩
  · obtain ⟨h, -⟩ | ⟨h, -⟩ | ⟨-, e⟩ := deinit_cases s
    · cases hon.symm.trans h
    · cases hon.symm.trans h
    · exact e
  · obtain ⟨h, -⟩ | ⟨-, e⟩ | ⟨h, -⟩ := deinit_cases s
    · cases hoff.symm.trans h
    · exact e
    · cases hoff.symm.trans h

theorem exec_life {i : Instr} {s t : State} (h : exec i s = .next t) (hinit : ∀ ih, i ≠ .init ih)
    (hdeinit : i ≠ .deinit) : t.life = s.life := by
  obtain ⟨u, r, rfl, hu⟩ := exec_appends h hinit hdeinit
  exact hu.life

/-- Settles O15: it is `exec_life`. -/
theorem onlyInitAndDeinitWriteLife : Obligations.OnlyInitAndDeinitWriteLife :=
  fun _ _ _ h hinit hdeinit => exec_life h hinit hdeinit

/-- In FAILED every operation outside the codec is refused (R284). -/
theorem exec_of_failed {i : Instr} {s : State} (hfailed : s.life = .failed) (hi : isCodec i = false) :
    exec i s = .next (refuse s) := by
  by_cases hinit : ∃ ih, i = .init ih
  · obtain ⟨ih, rfl⟩ := hinit
    exact congrArg Host.Outcome.next (init_of_life_ne_off (by rw [hfailed]; decide))
  · by_cases hdeinit : i = .deinit
    · subst hdeinit
      exact congrArg Host.Outcome.next (deinit_of_failed hfailed)
    · exact exec_of_life_ne_on (by rw [hfailed]; decide) hi (fun ih h => hinit ⟨ih, h⟩) hdeinit

/-- In FAILED an operation only answers: refused, or of the codec. -/
theorem exec_of_failed_answers {i : Instr} {s : State} (hfailed : s.life = .failed) :
    ∃ r, exec i s = .next (s.answer r) := by
  cases hi : isCodec i with
  | true => exact exec_codec hi s
  | false => exact ⟨_, exec_of_failed hfailed hi⟩

/-- Settles O16: in FAILED a step only takes the operation and answers it. -/
theorem failedInitIsTerminal : Obligations.FailedInitIsTerminal := by
  refine fun s hfailed => ⟨fun t h => ?_, fun i hi => exec_of_failed hfailed hi⟩
  obtain ⟨op, rest, -, ⟨i, -, hexec⟩ | ⟨-, rfl⟩⟩ := step_cases h
  · obtain ⟨r, hr⟩ := exec_of_failed_answers (i := i) (s := s.takeOp op rest) hfailed
    obtain rfl : (s.takeOp op rest).answer r = t := Host.Outcome.next.inj (hr.symm.trans hexec)
    exact ⟨hfailed, rfl, rfl, rfl, rfl, rfl, rfl, rfl⟩
  · exact ⟨hfailed, rfl, rfl, rfl, rfl, rfl, rfl, rfl⟩

end Sys2Proof
end

section
/-! PROOFS. The power-on values are unobservable (spec/10_state.md R43): two states that agree on everything but what R43
calls unspecified run alike, since before INIT no operation reads a register and INIT writes them all. -/

namespace Sys2Proof

open Machine

theorem indistinguishable_of_eq {a b : State} (h : a = b) : Indistinguishable a b := by
  subst h
  exact ⟨rfl, rfl, rfl, rfl, rfl, rfl, rfl, fun _ => rfl⟩

theorem indistinguishable_answer {a b : State} (h : Indistinguishable a b) (r : Response) :
    Indistinguishable (a.answer r) (b.answer r) := by
  obtain ⟨hlife, hrx, hport, hdata, hevents, hresp, hdraws, hon⟩ := h
  exact ⟨hlife, hrx, hport, hdata, hevents, congrArg (· ++ [r]) hresp, hdraws, fun k => congrArg (·.answer r) (hon k)⟩

theorem indistinguishable_takeOp {a b : State} (h : Indistinguishable a b) (op : PortOp) (rest : List PortOp) :
    Indistinguishable (a.takeOp op rest) (b.takeOp op rest) := by
  obtain ⟨hlife, hrx, hport, hdata, hevents, hresp, hdraws, hon⟩ := h
  exact ⟨hlife, hrx, rfl, rfl, hevents, hresp, hdraws, fun k => congrArg (·.takeOp op rest) (hon k)⟩

/-- A successful INIT writes every register, so the two blocks it turns ON are the same (R111, R112). -/
theorem clearBlock_eq_of_indistinguishable {a b : State} (h : Indistinguishable a b) (p : Pib) :
    (clearBlock p (a.setDraws (a.draws + 1))).setLife .on = (clearBlock p (b.setDraws (b.draws + 1))).setLife .on := by
  obtain ⟨-, -, hport, hdata, hevents, hresp, hdraws, -⟩ := h
  simp only [clearBlock, State.setDraws, State.setPib, State.setEng, State.setQueue, State.setWindow,
    State.setRadioRx, State.setLife, hport, hdata, hevents, hresp, hdraws]

theorem init_indistinguishable (c : Params) {a b : State} (h : Indistinguishable a b) :
    Indistinguishable (init c a) (init c b) := by
  have hblock := clearBlock_eq_of_indistinguishable h c.pibDefault
  obtain ⟨hlife, hrx, hport, hdata, hevents, hresp, hdraws, -⟩ := id h
  have hdraw : drawInit c a = drawInit c b := congrArg c.initDraw hdraws
  obtain ⟨ha, ea⟩ | ⟨ha, da, ea⟩ | ⟨ha, da, ea⟩ := init_cases c a <;>
    obtain ⟨hb, eb⟩ | ⟨hb, db, eb⟩ | ⟨hb, db, eb⟩ := init_cases c b
  case inl.inl => rw [ea, eb]; exact indistinguishable_answer h _
  case inr.inl.inr.inl => rw [ea, eb, hblock]; exact indistinguishable_of_eq rfl
  case inr.inr.inr.inr =>
    rw [ea, eb]
    exact ⟨rfl, hrx, hport, hdata, hevents, congrArg (· ++ _) hresp, congrArg (· + 1) hdraws, nofun⟩
  case inl.inr.inl => exact absurd (hlife.trans hb) ha
  case inl.inr.inr => exact absurd (hlife.trans hb) ha
  case inr.inl.inl => exact absurd (hlife.symm.trans ha) hb
  case inr.inr.inl => exact absurd (hlife.symm.trans ha) hb
  case inr.inl.inr.inr => cases da.symm.trans (hdraw.trans db)
  case inr.inr.inr.inl => cases da.symm.trans (hdraw.trans db)

theorem deinit_indistinguishable {a b : State} (h : Indistinguishable a b) (hon : a.life ≠ .on) :
    Indistinguishable (deinit a) (deinit b) := by
  obtain ⟨hlife, -⟩ := id h
  unfold deinit
  rw [← hlife]
  split
  · exact indistinguishable_answer h _
  · exact indistinguishable_answer h _
  · next hon' => exact absurd hon' hon

/-- A codec operation gives one response to every state with its buffer (R148). -/
theorem codec_indistinguishable {i : Instr} (hi : isCodec i = true) {a b : State} (h : Indistinguishable a b) :
    ∃ r, exec i a = .next (a.answer r) ∧ exec i b = .next (b.answer r) := by
  obtain ⟨-, -, -, hdata, -⟩ := h
  obtain ⟨r, -, hr⟩ := codecIsStateless i a.dataIn hi
  exact ⟨r, hr a rfl, hr b hdata.symm⟩

/-- Operation by operation, indistinguishable states stay so. -/
theorem exec_indistinguishable {i : Instr} {a b a' : State} (h : Indistinguishable a b) (ha : exec i a = .next a') :
    ∃ b', exec i b = .next b' ∧ Indistinguishable a' b' := by
  by_cases hon : a.life = .on
  · obtain ⟨-, -, -, -, -, -, -, heq⟩ := h
    exact ⟨a', heq hon ▸ ha, indistinguishable_of_eq rfl⟩
  · cases hi : isCodec i with
    | true =>
      obtain ⟨r, hra, hrb⟩ := codec_indistinguishable hi h
      obtain rfl := Host.Outcome.next.inj (hra.symm.trans ha)
      exact ⟨_, hrb, indistinguishable_answer h r⟩
    | false =>
      by_cases hinit : ∃ ih, i = .init ih
      · obtain ⟨ih, rfl⟩ := hinit
        cases ha
        exact ⟨_, rfl, init_indistinguishable _ h⟩
      · by_cases hdeinit : i = .deinit
        · subst hdeinit
          cases ha
          exact ⟨_, rfl, deinit_indistinguishable h hon⟩
        · have hne : ∀ ih, i ≠ .init ih := fun ih hih => hinit ⟨ih, hih⟩
          obtain rfl := Host.Outcome.next.inj ((exec_of_life_ne_on hon hi hne hdeinit).symm.trans ha)
          obtain ⟨hlife, -⟩ := id h
          exact ⟨_, exec_of_life_ne_on (hlife ▸ hon) hi hne hdeinit, indistinguishable_answer h _⟩

/-- The two take the same operation off their ports, and run it or refuse it. -/
theorem step_indistinguishable {a b a' : State} (h : Indistinguishable a b) (ha : step a = .next a') :
    ∃ b', step b = .next b' ∧ Indistinguishable a' b' := by
  obtain ⟨op, rest, hport, hrun⟩ := step_cases ha
  obtain ⟨-, -, hports, -⟩ := id h
  have hport' : b.port = op :: rest := hports.symm.trans hport
  obtain ⟨i, hi, hexec⟩ | ⟨⟨e, he⟩, rfl⟩ := hrun
  · obtain ⟨b', hb', hind⟩ := exec_indistinguishable (indistinguishable_takeOp h op rest) hexec
    exact ⟨b', (step_of_legal hport' hi).trans hb', hind⟩
  · exact ⟨_, step_of_illegal hport' he, indistinguishable_answer (indistinguishable_takeOp h op rest) _⟩

/-- The first of k + 1 steps of a run. -/
theorem run_succ {M : Host.Core} {k : Nat} {s t : M.State} (h : M.run (k + 1) s = .next t) :
    ∃ u, M.step s = .next u ∧ M.run k u = .next t := by
  unfold Host.Core.run at h
  split at h
  · next u hu => exact ⟨u, hu, h⟩
  · cases h
  · cases h

/-- Settles O60: a simulation, step by step. -/
theorem powerOnValuesAreUnobservable : Obligations.PowerOnValuesAreUnobservable := by
  intro k
  induction k with
  | zero =>
    rintro a b a' h ⟨⟩
    exact ⟨b, rfl, h⟩
  | succ k ih =>
    intro a b a' h hrun
    obtain ⟨u, hu, hrest⟩ := run_succ hrun
    obtain ⟨v, hv, hind⟩ := step_indistinguishable h hu
    obtain ⟨b', hb', hind'⟩ := ih u v a' hind hrest
    have hv' : Sys2Proof.core.step b = .next v := hv
    exact ⟨b', by simp only [Host.Core.run, hv']; exact hb', hind'⟩

end Sys2Proof
end

section
/-! PROOFS. The invariant of the block's registers (spec/10_state.md R24 to R39, spec/43_csma_engine.md R213,
spec/44_indirect_queue.md R221): every engine procedure ends in one of the engine's states with that state's registers, and
every operation keeps the rest. -/

namespace Sys2Proof

open Machine

/-! ## The engine's registers by state -/

/-- What the registers of a request keep in every state of the engine (R29 to R32, R34). -/
structure RequestInv (c : Params) (e : Engine) : Prop where
  total : 1 ≤ e.totalTimer.toNat
  snapBE : e.sMinBE.toNat ≤ e.sMaxBE.toNat ∧ e.sMaxBE.toNat ≤ 8
  snapCB : e.sMaxCB.toNat ≤ 5
  len : e.len.toNat ≤ c.maxFrameLen.toNat
  retries : e.retries.toNat ≤ e.sMaxFR.toNat
  unnumbered : e.seqValid = false → e.seq = 0

/-- The exponent and the busy count of a continuing cycle (R31, R178). -/
structure CycleInv (c : Params) (e : Engine) : Prop where
  minBE : e.sMinBE.toNat ≤ e.BE.toNat
  maxBE : e.BE.toNat ≤ e.sMaxBE.toNat
  count : e.NB.toNat < ccaLimit c e
  cca : e.sDisableCCA = false

theorem engineInv_request {c : Params} {e : Engine} (h : EngineInv c e) (hst : e.st ≠ .idle) : RequestInv c e :=
  ⟨h.total hst, h.snapBE, h.snapCB, h.len, h.retries, h.unnumbered⟩

theorem engineInv_cycle {c : Params} {e : Engine} (h : EngineInv c e) (hst : e.st = .backoff ∨ e.st = .ccaWait) :
    CycleInv c e := by
  obtain ⟨hmin, hmax, hcount, hcca⟩ := h.cycle hst
  exact ⟨hmin, hmax, hcount, hcca⟩

theorem engineInv_idle (c : Params) : EngineInv c Engine.idle := by
  constructor <;> simp [Engine.idle]

theorem engineInv_backoff {c : Params} {e : Engine} (h : RequestInv c e) (hc : CycleInv c e) (hst : e.st = .backoff)
    (hlow : 1 ≤ e.backoffTimer) (hhigh : e.backoffTimer ≤ 255 * c.unitBackoffPeriod) (hack : e.ackTimer = 0) :
    EngineInv c e where
  idle := by simp [hst]
  total _ := h.total
  snapBE := h.snapBE
  snapCB := h.snapCB
  len := h.len
  cycle _ := ⟨hc.minBE, hc.maxBE, hc.count, hc.cca⟩
  retries := h.retries
  backoff _ := ⟨hlow, hhigh⟩
  noBackoff := by simp [hst]
  ack := by simp [hst]
  noAck _ := hack
  numbered := by simp [hst]
  unnumbered := h.unnumbered

theorem engineInv_ccaWait {c : Params} {e : Engine} (h : RequestInv c e) (hc : CycleInv c e) (hst : e.st = .ccaWait)
    (hbackoff : e.backoffTimer = 0) (hack : e.ackTimer = 0) : EngineInv c e where
  idle := by simp [hst]
  total _ := h.total
  snapBE := h.snapBE
  snapCB := h.snapCB
  len := h.len
  cycle _ := ⟨hc.minBE, hc.maxBE, hc.count, hc.cca⟩
  retries := h.retries
  backoff := by simp [hst]
  noBackoff _ := hbackoff
  ack := by simp [hst]
  noAck _ := hack
  numbered := by simp [hst]
  unnumbered := h.unnumbered

theorem engineInv_txWait {c : Params} {e : Engine} (h : RequestInv c e) (hst : e.st = .txWait)
    (hnumbered : e.seqValid = true) (hbackoff : e.backoffTimer = 0) (hack : e.ackTimer = 0) : EngineInv c e where
  idle := by simp [hst]
  total _ := h.total
  snapBE := h.snapBE
  snapCB := h.snapCB
  len := h.len
  cycle := by simp [hst]
  retries := h.retries
  backoff := by simp [hst]
  noBackoff _ := hbackoff
  ack := by simp [hst]
  noAck _ := hack
  numbered _ := hnumbered
  unnumbered := h.unnumbered

theorem engineInv_ackWait {c : Params} {e : Engine} (h : RequestInv c e) (hst : e.st = .ackWait)
    (hnumbered : e.seqValid = true) (hbackoff : e.backoffTimer = 0) (hlow : 1 ≤ e.ackTimer.toNat)
    (hhigh : e.ackTimer.toNat ≤ e.sAckWait.toNat) (hreq : e.ackReq = true) : EngineInv c e where
  idle := by simp [hst]
  total _ := h.total
  snapBE := h.snapBE
  snapCB := h.snapCB
  len := h.len
  cycle := by simp [hst]
  retries := h.retries
  backoff := by simp [hst]
  noBackoff _ := hbackoff
  ack _ := ⟨hlow, hhigh, hreq⟩
  noAck := by simp [hst]
  numbered _ := hnumbered
  unnumbered := h.unnumbered

/-! ## The engine's procedures -/

theorem assignSeq_of_numbered {s : State} (h : s.eng.seqValid = true) : assignSeq s = s := if_pos h

theorem assignSeq_of_unnumbered {s : State} (h : s.eng.seqValid = false) :
    assignSeq s =
      (s.setPib { s.pib with dsn := s.pib.dsn + 1 }).setEng { s.eng with seq := s.pib.dsn, seqValid := true } :=
  if_neg (by rw [h]; decide)

/-- Numbering writes `seq` and `seqValid` of the engine and nothing else of it (R180). -/
theorem assignSeq_eng (s : State) :
    (assignSeq s).eng = { s.eng with seq := (assignSeq s).eng.seq, seqValid := true } := by
  cases h : s.eng.seqValid with
  | true => rw [assignSeq_of_numbered h, ← h]
  | false => rw [assignSeq_of_unnumbered h]; rfl

theorem transmit_eng (s : State) :
    (transmit s).eng = { s.eng with seq := (assignSeq s).eng.seq, seqValid := true, st := .txWait } := by
  show { (assignSeq s).eng with st := EngState.txWait } = _
  rw [assignSeq_eng]

theorem transmit_inv {c : Params} {s : State} (h : RequestInv c s.eng) (hbackoff : s.eng.backoffTimer = 0)
    (hack : s.eng.ackTimer = 0) : EngineInv c (transmit s).eng := by
  rw [transmit_eng]
  exact engineInv_txWait ⟨h.total, h.snapBE, h.snapCB, h.len, h.retries, nofun⟩ rfl rfl hbackoff hack

theorem issueCca_inv {c : Params} {s : State} (h : RequestInv c s.eng) (hc : CycleInv c s.eng)
    (hack : s.eng.ackTimer = 0) : EngineInv c (issueCca s).eng :=
  engineInv_ccaWait ⟨h.total, h.snapBE, h.snapCB, h.len, h.retries, h.unnumbered⟩
    ⟨hc.minBE, hc.maxBE, hc.count, hc.cca⟩ rfl rfl hack

/-- With an exponent of at most 8, a draw is at most 255 (R33, R176). -/
theorem startBackoff_inv {c : Params} {s : State} (h : RequestInv c s.eng) (hc : CycleInv c s.eng)
    (hack : s.eng.ackTimer = 0) : EngineInv c (startBackoff c s).eng := by
  obtain ⟨r, -, hr, ⟨-, e⟩ | ⟨hpos, e⟩⟩ := startBackoff_cases c s <;> rw [e]
  · exact issueCca_inv (s := s.setDraws (s.draws + 1)) h hc hack
  · have hBE : s.eng.BE.toNat ≤ 8 := hc.maxBE.trans h.snapBE.2
    have hr255 : r ≤ 255 := by
      have := hr.trans_le (Nat.pow_le_pow_right (by decide : 0 < 2) hBE)
      omega
    exact engineInv_backoff ⟨h.total, h.snapBE, h.snapCB, h.len, h.retries, h.unnumbered⟩
      ⟨hc.minBE, hc.maxBE, hc.count, hc.cca⟩ rfl hpos (Nat.mul_le_mul_right _ hr255) hack

theorem startCycle_inv {c : Params} {s : State} (h : RequestInv c s.eng) (hbackoff : s.eng.backoffTimer = 0)
    (hack : s.eng.ackTimer = 0) : EngineInv c (startCycle c s).eng := by
  obtain ⟨-, e⟩ | ⟨-, -, e⟩ | ⟨hcca, hlimit, e⟩ := startCycle_cases c s <;> rw [e]
  · exact transmit_inv h hbackoff hack
  · exact engineInv_idle c
  · exact startBackoff_inv (s := cycleStart s) ⟨h.total, h.snapBE, h.snapCB, h.len, h.retries, h.unnumbered⟩
      ⟨Nat.le_refl _, h.snapBE.1, hlimit, hcca⟩ hack

theorem ackFail_inv {c : Params} {s : State} (h : RequestInv c s.eng) (hbackoff : s.eng.backoffTimer = 0)
    (hack : s.eng.ackTimer = 0) : EngineInv c (ackFail c s).eng := by
  obtain ⟨hleft, e⟩ | ⟨-, e⟩ := ackFail_cases c s <;> rw [e]
  · have hretries : (s.eng.retries + 1).toNat ≤ s.eng.sMaxFR.toNat := by bv_omega
    exact startCycle_inv ⟨h.total, h.snapBE, h.snapCB, h.len, hretries, h.unnumbered⟩ hbackoff hack
  · exact engineInv_idle c

theorem pibWf_iff (p : Pib) :
    p.wf = true ↔ p.minBE.toNat ≤ p.maxBE.toNat ∧ p.maxBE.toNat ≤ 8 ∧ p.maxCSMABackoffs.toNat ≤ 5 := by
  simp only [Pib.wf, Bool.and_eq_true, decide_eq_true_eq, and_assoc]

/-- An accepted request latches a PIB within its bounds into an engine that has no timer running (R177). -/
theorem startRequest_inv {c : Params} {h l : Byte} {a : Bool} {s : State} (hpib : s.pib.wf = true)
    (hlen : l.toNat ≤ c.maxFrameLen.toNat) (hidle : s.eng = Engine.idle) :
    EngineInv c (startRequest c h l a s).eng := by
  obtain ⟨hmin, hmax, hcb⟩ := (pibWf_iff s.pib).mp hpib
  obtain ⟨-, e⟩ | ⟨hwait, e⟩ := startRequest_cases c h l a s <;> rw [e]
  · exact engineInv_idle c
  · have htotal : 1 ≤ s.pib.maxFrameTotalWaitTime.toNat := by bv_omega
    have hbackoff : s.eng.backoffTimer = 0 := by rw [hidle]; rfl
    have hack : s.eng.ackTimer = 0 := by rw [hidle]; rfl
    exact startCycle_inv (s := loadTotal (latchRequest h l a s))
      ⟨htotal, ⟨hmin, hmax⟩, hcb, hlen, Nat.zero_le _, fun _ => rfl⟩ hbackoff hack

/-- The exponent grows by one up to `sMaxBE`, which fits its register (R175, BE_GROWTH = INCREMENT). -/
theorem busyCca_BE_toNat (s : State) :
    (busyCca Config.platform s).eng.BE.toNat = min (s.eng.BE.toNat + 1) s.eng.sMaxBE.toNat :=
  Nat.mod_eq_of_lt ((Nat.min_le_right _ _).trans_lt s.eng.sMaxBE.isLt)

/-- The busy CCA of a cycle that may go on: the exponent stays within its bounds (R175, R183). -/
theorem busyCca_cycle {s : State} (hc : CycleInv Config.platform s.eng)
    (hcount : (busyCca Config.platform s).eng.NB.toNat < ccaLimit Config.platform s.eng) :
    CycleInv Config.platform (busyCca Config.platform s).eng := by
  obtain ⟨hmin, hmax, -, hcca⟩ := hc
  refine ⟨?_, ?_, hcount, hcca⟩ <;> rw [busyCca_BE_toNat]
  · show s.eng.sMinBE.toNat ≤ _
    omega
  · exact Nat.min_le_right _ _

/-- The state's timer: at its last tick the CCA or the failed attempt, before it one less (R187). -/
theorem stateTick_inv {c : Params} {s : State} (h : EngineInv c s.eng) (hst : s.eng.st ≠ .idle) :
    EngineInv c (stateTick c s).eng := by
  have hreq := engineInv_request h hst
  obtain ⟨hb, -, e⟩ | ⟨hb, htwo, e⟩ | ⟨ha, -, e⟩ | ⟨ha, hone, e⟩ | ⟨-, -, e⟩ := stateTick_cases c s <;> rw [e]
  · have hcyc := engineInv_cycle h (.inl hb)
    exact issueCca_inv (s := s.setEng _) ⟨hreq.total, hreq.snapBE, hreq.snapCB, hreq.len, hreq.retries, hreq.unnumbered⟩
      ⟨hcyc.minBE, hcyc.maxBE, hcyc.count, hcyc.cca⟩ (h.noAck (by rw [hb]; decide))
  · have hcyc := engineInv_cycle h (.inl hb)
    obtain ⟨-, hhigh⟩ := h.backoff hb
    exact engineInv_backoff ⟨hreq.total, hreq.snapBE, hreq.snapCB, hreq.len, hreq.retries, hreq.unnumbered⟩
      ⟨hcyc.minBE, hcyc.maxBE, hcyc.count, hcyc.cca⟩ hb (Nat.le_sub_of_add_le htwo) ((Nat.sub_le _ _).trans hhigh)
      (h.noAck (by rw [hb]; decide))
  · exact ackFail_inv (s := s.setEng _)
      ⟨hreq.total, hreq.snapBE, hreq.snapCB, hreq.len, hreq.retries, hreq.unnumbered⟩ (h.noBackoff (by rw [ha]; decide)) rfl
  · obtain ⟨hlow, hhigh, hackReq⟩ := h.ack ha
    have hlow' : 1 ≤ (s.eng.ackTimer - 1).toNat := by bv_omega
    have hhigh' : (s.eng.ackTimer - 1).toNat ≤ s.eng.sAckWait.toNat := by bv_omega
    exact engineInv_ackWait ⟨hreq.total, hreq.snapBE, hreq.snapCB, hreq.len, hreq.retries, hreq.unnumbered⟩ ha
      (h.numbered (.inr ha)) (h.noBackoff (by rw [ha]; decide)) hlow' hhigh' hackReq
  · exact h

/-- A total timer that does not end the request has time left after its decrement (R187). -/
theorem totalTick_inv {c : Params} {s : State} (h : EngineInv c s.eng) (hst : s.eng.st ≠ .idle)
    (hone : s.eng.totalTimer ≠ 1) : EngineInv c (totalTick s).eng where
  idle hidle := absurd hidle hst
  total _ := by
    have := h.total hst
    show 1 ≤ (s.eng.totalTimer - 1).toNat
    bv_omega
  snapBE := h.snapBE
  snapCB := h.snapCB
  len := h.len
  cycle := h.cycle
  retries := h.retries
  backoff := h.backoff
  noBackoff := h.noBackoff
  ack := h.ack
  noAck := h.noAck
  numbered := h.numbered
  unnumbered := h.unnumbered

theorem engineTick_inv {c : Params} {s : State} (h : EngineInv c s.eng) : EngineInv c (engineTick c s).eng := by
  obtain ⟨-, e⟩ | ⟨-, -, e⟩ | ⟨hst, hone, e⟩ := engineTick_cases c s <;> rw [e]
  · exact h
  · exact engineInv_idle c
  · exact stateTick_inv (s := totalTick s) (totalTick_inv h hst hone) hst

/-! ## The engine, the queue and the window together -/

/-- A held entry has time left and is not oversized (R36, R221). -/
def EntryInv (c : Params) (e : Entry) : Prop := 1 ≤ e.persist.toNat ∧ e.len.toNat ≤ c.maxFrameLen.toNat

/-- The invariant's part for the engine, the queue and the window, in an ON block. -/
structure BodyInv (c : Params) (s : State) : Prop where
  eng : EngineInv c s.eng
  depth : s.queue.length ≤ c.indirectDepth
  entries : ∀ e ∈ s.queue, EntryInv c e
  window : s.windowActive = true ↔ s.windowTimer ≠ 0

theorem bodyInv_answer {c : Params} {s : State} (h : BodyInv c s) (r : Response) : BodyInv c (s.answer r) :=
  ⟨h.eng, h.depth, h.entries, h.window⟩

theorem bodyInv_emit {c : Params} {s : State} (h : BodyInv c s) (e : Event) : BodyInv c (s.emit e) :=
  ⟨h.eng, h.depth, h.entries, h.window⟩

theorem bodyInv_setLife {c : Params} {s : State} (h : BodyInv c s) (l : Life) : BodyInv c (s.setLife l) :=
  ⟨h.eng, h.depth, h.entries, h.window⟩

theorem bodyInv_applyRx {c : Params} {s : State} (h : BodyInv c s) : BodyInv c (applyRx s) :=
  ⟨h.eng, h.depth, h.entries, h.window⟩

/-- An engine procedure leaves the queue and the window alone. -/
theorem bodyInv_engine {c : Params} {s t : State} (h : BodyInv c s) (hf : EngineFrame s t) (he : EngineInv c t.eng) :
    BodyInv c t :=
  ⟨he, hf.queue ▸ h.depth, hf.queue ▸ h.entries, by rw [hf.windowActive, hf.windowTimer]; exact h.window⟩

/-- Fewer held entries, each of them held before. -/
theorem bodyInv_setQueue {c : Params} {s : State} (h : BodyInv c s) {q : List Entry} (hq : q.Sublist s.queue) :
    BodyInv c (s.setQueue q) :=
  ⟨h.eng, hq.length_le.trans h.depth, fun e he => h.entries e (hq.mem he), h.window⟩

theorem bodyInv_clearBlock (c : Params) (p : Pib) (s : State) : BodyInv c (clearBlock p s) :=
  ⟨engineInv_idle c, Nat.zero_le _, fun _ he => absurd he List.not_mem_nil, by simp [clearBlock]⟩

theorem bodyInv_finish {c : Params} {s : State} (h : BodyInv c s) (st : Status) : BodyInv c (finish st s) :=
  bodyInv_engine h (finish_frame st s) (engineInv_idle c)

theorem bodyInv_enqueue {c : Params} {hd l : Byte} {a : Bool} {s : State} (h : BodyInv c s)
    (hlen : l.toNat ≤ c.maxFrameLen.toNat) : BodyInv c (enqueue c hd l a s) := by
  obtain ⟨-, e⟩ | ⟨-, -, e⟩ | ⟨hfull, hzero, e⟩ := enqueue_cases c hd l a s <;> rw [e]
  · exact bodyInv_emit h _
  · exact bodyInv_emit h _
  · have hdepth := h.depth
    refine ⟨h.eng, ?_, fun e he => ?_, h.window⟩
    · rw [State.setQueue_queue, List.length_append, List.length_singleton]
      omega
    · obtain he | he := List.mem_append.mp he
      · exact h.entries e he
      · obtain rfl := List.mem_singleton.mp he
        exact ⟨by show 1 ≤ s.pib.transactionPersistenceTime.toNat; bv_omega, hlen⟩

theorem bodyInv_startRequest {c : Params} {hd l : Byte} {a : Bool} {s : State} (h : BodyInv c s)
    (hpib : s.pib.wf = true) (hlen : l.toNat ≤ c.maxFrameLen.toNat) (hidle : s.eng.st = .idle) :
    BodyInv c (startRequest c hd l a s) :=
  bodyInv_engine h (startRequest_frame c hd l a s) (startRequest_inv hpib hlen (h.eng.idle hidle))

theorem bodyInv_moveWindow {c : Params} {s : State} (h : BodyInv c s) (stop start : Bool) (dur : Symbols) :
    BodyInv c (moveWindow stop start dur s) := by
  rw [moveWindow_eq]
  refine ⟨h.eng, h.depth, h.entries, ?_⟩
  have hwindow := h.window
  cases start
  · cases stop
    · exact hwindow
    · simp
  · simp

/-! ## Ticks -/

theorem mem_queueTick {s : State} {e : Entry} (he : e ∈ (queueTick s).queue) :
    ∃ e₀ ∈ s.queue, e = e₀.aged ∧ e.persist ≠ 0 := by
  have hmem : e ∈ (s.queue.map Entry.aged).filter (fun e => !e.expired) := he
  rw [List.mem_filter, List.mem_map] at hmem
  obtain ⟨⟨e₀, he₀, rfl⟩, hlive⟩ := hmem
  refine ⟨e₀, he₀, rfl, fun hzero => ?_⟩
  rw [Entry.expired, hzero] at hlive
  cases hlive

theorem bodyInv_queueTick {c : Params} {s : State} (h : BodyInv c s) : BodyInv c (queueTick s) := by
  refine ⟨h.eng, ?_, fun e he => ?_, h.window⟩
  · calc (queueTick s).queue.length ≤ (s.queue.map Entry.aged).length := List.length_filter_le _ _
      _ = s.queue.length := List.length_map _
      _ ≤ c.indirectDepth := h.depth
  · obtain ⟨e₀, he₀, rfl, hpersist⟩ := mem_queueTick he
    obtain ⟨-, hlen⟩ := h.entries e₀ he₀
    exact ⟨by bv_omega, hlen⟩

theorem bodyInv_windowTick {c : Params} {s : State} (h : BodyInv c s) : BodyInv c (windowTick s) := by
  obtain ⟨-, e⟩ | ⟨-, -, e⟩ | ⟨hopen, hone, e⟩ := windowTick_cases s <;> rw [e]
  · exact h
  · exact bodyInv_applyRx ⟨h.eng, h.depth, h.entries, by simp⟩
  · have hzero := h.window.mp hopen
    have hleft : s.windowTimer - 1 ≠ 0 := by bv_omega
    exact ⟨h.eng, h.depth, h.entries, iff_of_true rfl hleft⟩

theorem bodyInv_ticks {c : Params} {s : State} (h : BodyInv c s) (n : Nat) : BodyInv c (ticks c n s) :=
  ticks_keep c (BodyInv c)
    (fun t ht => bodyInv_windowTick (bodyInv_queueTick (bodyInv_engine ht (engineTick_frame c t) (engineTick_inv ht.eng))))
    n s h

/-! ## Every operation in ON -/

theorem oldest_mem {q : List Entry} {h : Byte} {e : Entry} (he : oldest q h = some e) : e ∈ q :=
  List.mem_of_find?_eq_some he

theorem bodyInv_ccaResult {busy : Bool} {s : State} (h : BodyInv Config.platform s) :
    BodyInv Config.platform (ccaResult Config.platform busy s) := by
  obtain ⟨-, e⟩ | ⟨-, -, -, -, e⟩ | ⟨-, hst, -, hcount, e⟩ | ⟨-, hst, -, e⟩ := ccaResult_cases Config.platform busy s <;>
    rw [e]
  · exact bodyInv_answer h _
  · exact bodyInv_answer (bodyInv_engine h ((setEng_frame s _).trans (finish_frame _ _)) (engineInv_idle _)) _
  · have hreq := engineInv_request h.eng (by rw [hst]; decide)
    have hcyc := busyCca_cycle (engineInv_cycle h.eng (.inr hst)) hcount
    refine bodyInv_answer (bodyInv_engine h ((setEng_frame s _).trans (startBackoff_frame _ _)) ?_) _
    exact startBackoff_inv (s := busyCca _ s)
      ⟨hreq.total, hreq.snapBE, hreq.snapCB, hreq.len, hreq.retries, hreq.unnumbered⟩ hcyc
      (h.eng.noAck (by rw [hst]; decide))
  · exact bodyInv_answer (bodyInv_engine h (transmit_frame s) (transmit_inv (engineInv_request h.eng (by rw [hst]; decide))
      (h.eng.noBackoff (by rw [hst]; decide)) (h.eng.noAck (by rw [hst]; decide)))) _

theorem bodyInv_txDone {c : Params} {s : State} (h : BodyInv c s) : BodyInv c (txDone c s) := by
  obtain ⟨-, e⟩ | ⟨-, -, -, e⟩ | ⟨-, hst, -, -, e⟩ | ⟨-, hst, hack, hwait, e⟩ := txDone_cases c s <;> rw [e]
  · exact bodyInv_answer h _
  · exact bodyInv_answer (bodyInv_finish h _) _
  · exact bodyInv_answer (bodyInv_engine h (ackFail_frame c s) (ackFail_inv (engineInv_request h.eng (by rw [hst]; decide))
      (h.eng.noBackoff (by rw [hst]; decide)) (h.eng.noAck (by rw [hst]; decide)))) _
  · have hreq := engineInv_request h.eng (by rw [hst]; decide)
    refine bodyInv_answer (bodyInv_engine h (setEng_frame s _) ?_) _
    exact engineInv_ackWait ⟨hreq.total, hreq.snapBE, hreq.snapCB, hreq.len, hreq.retries, hreq.unnumbered⟩ rfl
      (h.eng.numbered (.inl hst)) (h.eng.noBackoff (by rw [hst]; decide))
      (by show 1 ≤ s.eng.sAckWait.toNat; bv_omega) (Nat.le_refl _) hack

/-- An operation other than DEINIT keeps the engine's, the queue's and the window's registers in an ON block. -/
theorem bodyInv_exec {i : Instr} {s t : State} (h : exec i s = .next t) (hon : s.life = .on) (hdeinit : i ≠ .deinit)
    (hpib : s.pib.wf = true) (hs : BodyInv Config.platform s) : BodyInv Config.platform t := by
  have hrefuse : BodyInv Config.platform (refuse s) := bodyInv_answer hs _
  cases i <;> cases h
  case init ih => rw [init_of_life_ne_off (by rw [hon]; decide)]; exact hrefuse
  case deinit => exact absurd rfl hdeinit
  case reset =>
    obtain ⟨-, e⟩ | ⟨-, e⟩ := resetBlock_cases Config.platform s <;> rw [e]
    · exact hrefuse
    · exact bodyInv_answer (bodyInv_emit (bodyInv_applyRx (bodyInv_clearBlock _ _ s)) _) _
  case pibSet attr v =>
    obtain ⟨-, e⟩ | ⟨-, _, -, e⟩ | ⟨-, r, -, -, e⟩ := pibSet_cases attr v s <;> rw [e]
    · exact hrefuse
    · exact bodyInv_answer (bodyInv_emit hs _) _
    · have hset : BodyInv Config.platform (s.setPib (writePib s.pib r v)) := ⟨hs.eng, hs.depth, hs.entries, hs.window⟩
      refine bodyInv_answer (bodyInv_emit ?_ _) _
      unfold writeReg
      split
      · exact hset
      · exact bodyInv_applyRx hset
  case pibGet attr =>
    obtain ⟨-, e⟩ | ⟨-, _, _, e⟩ := pibGet_cases attr s <;> rw [e]
    · exact hrefuse
    · exact bodyInv_answer (bodyInv_emit hs _) _
  case hdrEncode => exact bodyInv_answer hs _
  case hdrDecode => exact bodyInv_answer hs _
  case frameParse => exact bodyInv_answer hs _
  case frameBuild => exact bodyInv_answer hs _
  case classify => exact bodyInv_answer hs _
  case dataReq h l ind ack =>
    obtain ⟨-, e⟩ | ⟨-, -, e⟩ | ⟨-, hlen, -, e⟩ | ⟨-, hlen, -, hidle, e⟩ | ⟨-, -, -, -, e⟩ :=
      dataReq_cases Config.platform h l ind ack s <;> rw [e]
    · exact hrefuse
    · exact bodyInv_answer (bodyInv_emit hs _) _
    · exact bodyInv_answer (bodyInv_enqueue hs hlen) _
    · exact bodyInv_answer (bodyInv_startRequest hs hpib hlen hidle) _
    · exact bodyInv_answer (bodyInv_emit hs _) _
  case tick n =>
    obtain ⟨-, e⟩ | ⟨-, e⟩ := tick_cases Config.platform n s <;> rw [e]
    · exact hrefuse
    · exact bodyInv_answer (bodyInv_ticks hs _) _
  case ccaResult busy => exact bodyInv_ccaResult hs
  case txDone => exact bodyInv_txDone hs
  case ackRx seq =>
    obtain ⟨-, e⟩ | ⟨-, -, -, e⟩ := ackRx_cases seq s <;> rw [e]
    · exact hrefuse
    · exact bodyInv_answer (bodyInv_finish hs _) _
  case indRelease h =>
    obtain ⟨-, e⟩ | ⟨-, -, e⟩ | ⟨-, -, -, e⟩ | ⟨-, hidle, en, hen, e⟩ := indRelease_cases Config.platform h s <;> rw [e]
    · exact hrefuse
    · exact bodyInv_answer hs _
    · exact bodyInv_answer hs _
    · obtain ⟨-, hlen⟩ := hs.entries en (oldest_mem hen)
      have hqueue := bodyInv_setQueue hs (List.eraseP_sublist : (withoutOldest s.queue h).Sublist s.queue)
      exact bodyInv_answer (bodyInv_startRequest hqueue hpib hlen hidle) _
  case purge h =>
    obtain ⟨-, e⟩ | ⟨-, -, e⟩ | ⟨-, -, e⟩ := purge_cases h s <;> rw [e]
    · exact hrefuse
    · exact bodyInv_answer (bodyInv_emit hs _) _
    · exact bodyInv_answer (bodyInv_emit (bodyInv_setQueue hs List.eraseP_sublist) _) _
  case rxEnable stop start dur =>
    have hmove := bodyInv_moveWindow hs stop start dur
    obtain ⟨-, e⟩ | ⟨-, -, e⟩ | ⟨-, -, e⟩ := rxEnable_cases stop start dur s <;> rw [e]
    · exact hrefuse
    · exact bodyInv_answer (bodyInv_emit hmove _) _
    · exact bodyInv_answer (bodyInv_emit (bodyInv_applyRx hmove) _) _
  case isRxEnabled =>
    obtain ⟨-, e⟩ | ⟨-, e⟩ := isRxEnabled_cases s <;> rw [e]
    · exact hrefuse
    · exact bodyInv_answer hs _
  case startRx =>
    obtain ⟨-, e⟩ | ⟨-, e⟩ := startRx_cases s <;> rw [e]
    · exact hrefuse
    · exact bodyInv_answer (bodyInv_applyRx hs) _

/-! ## The PIB's bounds (R24, R25) -/

theorem pibDefault_wf : Config.pibDefault.wf = true := by
  have hmax := Config.defaultMaxBE.isLt
  have hcb := Config.defaultMaxCSMABackoffs.isLt
  rw [pibWf_iff]
  simp only [Config.pibDefault, BitVec.toNat_ofNat]
  omega

/-- A legal SET keeps the bounds (R116). -/
theorem writePib_wf {p : Pib} {r : PibReg} {v : Half} (hp : p.wf = true) (hlegal : legalPib p r v = true) :
    (writePib p r v).wf = true := by
  rw [pibWf_iff] at hp ⊢
  obtain ⟨hpair, hmax, hcb⟩ := hp
  cases r <;> simp only [legalPib, writePib, Bool.and_eq_true, decide_eq_true_eq, BitVec.toNat_setWidth] at hlegal ⊢
  case minBE => exact ⟨(Nat.mod_le _ _).trans hlegal, hmax, hcb⟩
  case maxBE =>
    have hfits : v.toNat % 2 ^ 4 = v.toNat := Nat.mod_eq_of_lt (by omega)
    exact ⟨hfits.symm ▸ hlegal.1, hfits.symm ▸ hlegal.2, hcb⟩
  case maxCSMABackoffs => exact ⟨hpair, hmax, (Nat.mod_le _ _).trans hlegal⟩
  all_goals exact ⟨hpair, hmax, hcb⟩

/-- Every operation that ends in ON keeps the PIB's bounds: INIT and RESET load the defaults, PIB_SET writes legal values,
and the engine writes `dsn` alone. -/
theorem exec_keeps_pibWf {i : Instr} {s t : State} (h : exec i s = .next t) (hon : t.life = .on)
    (hs : s.life = .on → s.pib.wf = true) : t.pib.wf = true := by
  by_cases hinit : ∃ ih, i = .init ih
  · obtain ⟨ih, rfl⟩ := hinit
    cases h
    obtain ⟨-, e⟩ | ⟨-, -, e⟩ | ⟨-, -, e⟩ := init_cases Config.platform s <;> rw [e] at hon ⊢
    · exact hs hon
    · exact pibDefault_wf
    · cases hon
  have hne : ∀ ih, i ≠ .init ih := fun ih hih => hinit ⟨ih, hih⟩
  by_cases hdeinit : i = .deinit
  · subst hdeinit
    cases h
    exact absurd hon (deinit_life_ne_on s)
  have hpib := hs ((exec_life h hne hdeinit).symm.trans hon)
  by_cases hreset : i = .reset
  · subst hreset
    cases h
    obtain ⟨-, e⟩ | ⟨-, e⟩ := resetBlock_cases Config.platform s <;> rw [e]
    · exact hpib
    · exact pibDefault_wf
  by_cases hset : ∃ attr v, i = .pibSet attr v
  · obtain ⟨attr, v, rfl⟩ := hset
    cases h
    obtain ⟨-, e⟩ | ⟨-, _, -, e⟩ | ⟨-, r, -, hlegal, e⟩ := pibSet_cases attr v s <;> rw [e]
    · exact hpib
    · exact hpib
    · show (writeReg r v s).pib.wf = true
      rw [writeReg_pib]
      exact writePib_wf hpib hlegal
  rw [(exec_writes h hne hdeinit hreset fun attr v hi => hset ⟨attr, v, hi⟩).pib]
  exact hpib

/-! ## The whole invariant -/

/-- Outside ON the receiver register is 0 (R38): no operation drives it there, and DEINIT clears it. -/
theorem exec_keeps_off {i : Instr} {s t : State} (h : exec i s = .next t) (hon : t.life ≠ .on)
    (hs : s.life ≠ .on → s.radioRx = false) : t.radioRx = false := by
  by_cases hinit : ∃ ih, i = .init ih
  · obtain ⟨ih, rfl⟩ := hinit
    cases h
    obtain ⟨-, e⟩ | ⟨-, -, e⟩ | ⟨hoff, -, e⟩ := init_cases Config.platform s <;> rw [e] at hon ⊢
    · exact hs hon
    · exact absurd rfl hon
    · exact hs (by rw [hoff]; decide)
  have hne : ∀ ih, i ≠ .init ih := fun ih hih => hinit ⟨ih, hih⟩
  by_cases hdeinit : i = .deinit
  · subst hdeinit
    cases h
    obtain ⟨hfailed, e⟩ | ⟨hoff, e⟩ | ⟨-, e⟩ := deinit_cases s <;> rw [e]
    · exact hs (by rw [hfailed]; decide)
    · exact hs (by rw [hoff]; decide)
    · rfl
  have hlife : s.life ≠ .on := exec_life h hne hdeinit ▸ hon
  obtain ⟨r, hr⟩ : ∃ r, exec i s = .next (s.answer r) := by
    cases hi : isCodec i with
    | true => exact exec_codec hi s
    | false => exact ⟨_, exec_of_life_ne_on hlife hi hne hdeinit⟩
  obtain rfl := Host.Outcome.next.inj (hr.symm.trans h)
  exact hs hlife

theorem inv_body {c : Params} {s : State} (h : Inv c s) (hon : s.life = .on) : BodyInv c s :=
  ⟨h.eng hon, h.depth hon, h.entries hon, h.window hon⟩

theorem inv_receiverDecided {c : Params} {s : State} (h : Inv c s) : ReceiverDecided s := by
  intro hon
  obtain ⟨hrx, hlast⟩ := h.receiver hon
  exact ⟨hrx, hrx ▸ hlast⟩

theorem inv_of_parts {c : Params} {s : State} (hoff : s.life ≠ .on → s.radioRx = false)
    (hpib : s.life = .on → s.pib.wf = true) (hbody : s.life = .on → BodyInv c s) (hrx : ReceiverDecided s) : Inv c s where
  off := hoff
  pib := hpib
  eng hon := (hbody hon).eng
  depth hon := (hbody hon).depth
  entries hon := (hbody hon).entries
  window hon := (hbody hon).window
  receiver hon := by
    obtain ⟨hdec, hlast⟩ := hrx hon
    exact ⟨hdec, hdec ▸ hlast⟩

/-- A block that an operation leaves ON was ON before it, or INIT has just turned it ON with every register cleared. -/
theorem exec_keeps_body {i : Instr} {s t : State} (h : exec i s = .next t) (hs : Inv Config.platform s)
    (hon : t.life = .on) : BodyInv Config.platform t := by
  have hdeinit : i ≠ .deinit := by
    rintro rfl
    cases h
    exact deinit_life_ne_on s hon
  by_cases hlife : s.life = .on
  · exact bodyInv_exec h hlife hdeinit (hs.pib hlife) (inv_body hs hlife)
  · by_cases hinit : ∃ ih, i = .init ih
    · obtain ⟨ih, rfl⟩ := hinit
      cases h
      obtain ⟨-, e⟩ | ⟨-, -, e⟩ | ⟨-, -, e⟩ := init_cases Config.platform s <;> rw [e] at hon ⊢
      · exact absurd hon hlife
      · have hclear := bodyInv_clearBlock Config.platform Config.platform.pibDefault (s.setDraws (s.draws + 1))
        exact bodyInv_answer (bodyInv_applyRx (bodyInv_setLife hclear .on)) _
      · cases hon
    · exact absurd ((exec_life h (fun ih hih => hinit ⟨ih, hih⟩) hdeinit).symm.trans hon) hlife

theorem exec_keeps_inv {i : Instr} {s t : State} (h : exec i s = .next t) (hs : Inv Config.platform s) :
    Inv Config.platform t :=
  inv_of_parts (fun hoff => exec_keeps_off h hoff hs.off) (fun hon => exec_keeps_pibWf h hon hs.pib)
    (fun hon => exec_keeps_body h hs hon) (exec_keeps_receiverDecided h (inv_receiverDecided hs))

/-- Settles O55: taking the operation off the port touches no register, and neither does the refusal of an illegal one. -/
theorem everyStepKeepsTheInvariant : Obligations.EveryStepKeepsTheInvariant := by
  intro s t hs h
  obtain ⟨op, rest, -, hrun⟩ := step_cases h
  have htaken : Inv Config.platform (s.takeOp op rest) :=
    ⟨hs.off, hs.pib, hs.eng, hs.depth, hs.entries, hs.window, hs.receiver⟩
  obtain ⟨i, -, hexec⟩ | ⟨-, rfl⟩ := hrun
  · exact exec_keeps_inv hexec htaken
  · exact ⟨hs.off, hs.pib, hs.eng, hs.depth, hs.entries, hs.window, hs.receiver⟩

/-- Settles O54: at power-on the block is OFF, and its receiver register is 0. -/
theorem invariantAtReset : Obligations.InvariantAtReset :=
  inv_of_parts (fun _ => rfl) nofun nofun nofun

end Sys2Proof
end

section
/-! PROOFS. The accounting of data confirms (spec/43_csma_engine.md R191, spec/44_indirect_queue.md R225): what an operation
emits and what it leaves owed, together, are what was owed before it and what it submitted. -/

namespace Sys2Proof

open Machine

/-- The requests owed a confirm, and those submitted on the way, are confirmed once or still owed. -/
def Accounts (submitted : Byte → Nat) (s t : State) : Prop :=
  ∃ es, t.events = s.events ++ es ∧
    ∀ h, confirmsOf h es + liveRequests t h = liveRequests s h + submitted h

/-- One request of a handle, and none of another: what a DATA_REQ submits. -/
def oneOf (h : Byte) : Byte → Nat := fun k => if h = k then 1 else 0

/-- No request submitted. -/
def noneOf : Byte → Nat := fun _ => 0

/-- The requests owed a confirm stand in the queue and in the engine (R191). -/
theorem liveRequests_eq (s : State) (h : Byte) :
    liveRequests s h = s.queue.countP (fun e => decide (e.handle = h)) + engineLive s.eng h := rfl

/-- The engine and the queue are as they were, and no confirm of a request is emitted. -/
structure LeavesRequests (s t : State) : Prop where
  eng : t.eng = s.eng
  queue : t.queue = s.queue
  events : ∃ es, t.events = s.events ++ es ∧ ∀ h, confirmsOf h es = 0

theorem LeavesRequests.refl (s : State) : LeavesRequests s s :=
  ⟨rfl, rfl, [], (List.append_nil _).symm, fun _ => rfl⟩

theorem LeavesRequests.trans {s t u : State} (h : LeavesRequests s t) (k : LeavesRequests t u) :
    LeavesRequests s u := by
  obtain ⟨es, hes, hnone⟩ := h.events
  obtain ⟨fs, hfs, knone⟩ := k.events
  exact ⟨k.eng.trans h.eng, k.queue.trans h.queue, es ++ fs, by rw [hfs, hes, List.append_assoc],
    fun b => by rw [confirmsOf_append, hnone, knone]⟩

theorem LeavesRequests.answer {s t : State} (h : LeavesRequests s t) (r : Response) : LeavesRequests s (t.answer r) :=
  ⟨h.eng, h.queue, h.events⟩

theorem LeavesRequests.of_quiet {s t : State} (heng : t.eng = s.eng) (hqueue : t.queue = s.queue)
    (he : t.events = s.events) : LeavesRequests s t :=
  ⟨heng, hqueue, [], he.trans (List.append_nil _).symm, fun _ => rfl⟩

theorem emit_leavesRequests (s : State) {e : Event} (he : ∀ h, confirmsOf h [e] = 0) : LeavesRequests s (s.emit e) :=
  ⟨rfl, rfl, [e], rfl, he⟩

theorem applyRx_leavesRequests (s : State) : LeavesRequests s (applyRx s) :=
  ⟨rfl, rfl, [.radioRx (rxOn s)], rfl, fun _ => rfl⟩

theorem LeavesRequests.accounts {s t : State} (h : LeavesRequests s t) : Accounts noneOf s t := by
  obtain ⟨es, hes, hnone⟩ := h.events
  refine ⟨es, hes, fun b => ?_⟩
  rw [liveRequests_eq, liveRequests_eq, h.eng, h.queue, hnone]
  exact Nat.zero_add _

theorem Accounts.trans {s t u : State} {m : Byte → Nat} (h : Accounts m s t) (k : Accounts noneOf t u) :
    Accounts m s u := by
  obtain ⟨es, hes, hacc⟩ := h
  obtain ⟨fs, hfs, kacc⟩ := k
  refine ⟨es ++ fs, by rw [hfs, hes, List.append_assoc], fun b => ?_⟩
  have hb := hacc b
  have kb : confirmsOf b fs + liveRequests u b = liveRequests t b := kacc b
  rw [confirmsOf_append]
  omega

theorem Accounts.answer {s t : State} {m : Byte → Nat} (h : Accounts m s t) (r : Response) :
    Accounts m s (t.answer r) := h

/-! ## The engine's procedures -/

theorem engineLive_of_idle {e : Engine} (h : e.st = .idle) (b : Byte) : engineLive e b = 0 :=
  if_neg fun hlive => hlive.1 h

theorem engineLive_of_busy {e : Engine} (h : e.st ≠ .idle) (b : Byte) :
    engineLive e b = if e.handle = b then 1 else 0 := by
  rw [engineLive]
  simp only [ne_eq, h, not_false_eq_true, true_and]

/-- The request in a busy engine settles: it is confirmed once or still there. -/
theorem accounts_of_settles {s t : State} (hf : EngineFrame s t) (hst : s.eng.st ≠ .idle) (h : Settles s t) :
    Accounts noneOf s t := by
  obtain ⟨es, hes, -, hsettle⟩ := h
  refine ⟨es, hes, fun b => ?_⟩
  have hb := hsettle b
  rw [← engineLive_of_busy hst] at hb
  rw [liveRequests_eq, liveRequests_eq, hf.queue, ← hb]
  show _ = _ + 0
  omega

/-- A request accepted by an idle engine is confirmed once or stands in the engine. -/
theorem startRequest_accounts {c : Params} {h l : Byte} {a : Bool} {s : State} (hidle : s.eng.st = .idle) :
    Accounts (oneOf h) s (startRequest c h l a s) := by
  obtain ⟨es, hes, -, hsettle⟩ := startRequest_settles c h l a s
  refine ⟨es, hes, fun b => ?_⟩
  have hb : confirmsOf b es + engineLive (startRequest c h l a s).eng b = oneOf h b := hsettle b
  rw [liveRequests_eq, liveRequests_eq, (startRequest_frame c h l a s).queue, engineLive_of_idle hidle, ← hb]
  omega

/-- A request turned away is confirmed at once. -/
theorem confData_accounts (s : State) (h : Byte) (st : Status) : Accounts (oneOf h) s (s.emit (.confData h st)) := by
  refine ⟨[.confData h st], rfl, fun b => ?_⟩
  rw [liveRequests_eq, liveRequests_eq]
  simp [confirmsOf, oneOf, Nat.add_comm]

/-- A held request stands in the queue, one turned away is confirmed at once (R172). -/
theorem enqueue_accounts (c : Params) (h l : Byte) (a : Bool) (s : State) : Accounts (oneOf h) s (enqueue c h l a s) := by
  obtain ⟨-, e⟩ | ⟨-, -, e⟩ | ⟨-, -, e⟩ := enqueue_cases c h l a s <;> rw [e]
  · exact confData_accounts s h _
  · exact confData_accounts s h _
  · refine ⟨[], (List.append_nil _).symm, fun b => ?_⟩
    simp only [liveRequests_eq, State.setQueue_queue, State.setQueue_eng, List.countP_append, List.countP_singleton,
      decide_eq_true_eq, oneOf, confirmsOf, List.countP_nil]
    omega

/-! ## Ticks -/

theorem engineTick_accounts (c : Params) (s : State) : Accounts noneOf s (engineTick c s) := by
  by_cases hidle : s.eng.st = .idle
  · rw [engineTick, if_pos hidle]
    exact (LeavesRequests.refl s).accounts
  · exact accounts_of_settles (engineTick_frame c s) hidle (engineTick_settles c s hidle)

/-- An entry expires with its confirm or stays held (R226). -/
theorem queueTick_accounts (s : State) : Accounts noneOf s (queueTick s) := by
  refine ⟨_, rfl, fun b => ?_⟩
  have hsplit := List.countP_eq_countP_filter_add (s.queue.map Entry.aged) (fun e => decide (e.handle = b)) Entry.expired
  have haged : (s.queue.map Entry.aged).countP (fun e => decide (e.handle = b)) =
      s.queue.countP (fun e => decide (e.handle = b)) := List.countP_map
  rw [liveRequests_eq, liveRequests_eq, confirmsOf_expired, ← haged, hsplit]
  exact (Nat.add_assoc _ _ _).symm

theorem windowTick_leavesRequests (s : State) : LeavesRequests s (windowTick s) := by
  obtain ⟨-, e⟩ | ⟨-, -, e⟩ | ⟨-, -, e⟩ := windowTick_cases s <;> rw [e]
  · exact .refl s
  · have hclose : LeavesRequests s (s.setWindow false 0) := .of_quiet rfl rfl rfl
    exact hclose.trans (applyRx_leavesRequests _)
  · exact .of_quiet rfl rfl rfl

theorem ticks_accounts (c : Params) (n : Nat) (s : State) : Accounts noneOf s (ticks c n s) :=
  ticks_keep c (Accounts noneOf s)
    (fun t h => ((h.trans (engineTick_accounts c t)).trans (queueTick_accounts _)).trans
      (windowTick_leavesRequests _).accounts) n s (LeavesRequests.refl s).accounts

/-! ## The operations -/

/-- An operation outside the engine and the queue's leaves the requests alone. -/
theorem pibSet_leavesRequests (attr : Byte) (v : Half) (s : State) : LeavesRequests s (pibSet attr v s) := by
  obtain ⟨-, e⟩ | ⟨-, _, -, e⟩ | ⟨-, r, -, -, e⟩ := pibSet_cases attr v s <;> rw [e]
  · exact (LeavesRequests.refl s).answer _
  · exact (emit_leavesRequests s fun _ => rfl).answer _
  · have hset : LeavesRequests s (s.setPib (writePib s.pib r v)) := .of_quiet rfl rfl rfl
    have hwrite : LeavesRequests s (writeReg r v s) := by
      unfold writeReg
      split
      · exact hset
      · exact hset.trans (applyRx_leavesRequests _)
    exact (hwrite.trans (emit_leavesRequests _ fun _ => rfl)).answer _

theorem pibGet_leavesRequests (attr : Byte) (s : State) : LeavesRequests s (pibGet attr s) := by
  obtain ⟨-, e⟩ | ⟨-, _, _, e⟩ := pibGet_cases attr s <;> rw [e]
  · exact (LeavesRequests.refl s).answer _
  · exact (emit_leavesRequests s fun _ => rfl).answer _

theorem rxEnable_leavesRequests (stop start : Bool) (dur : Symbols) (s : State) :
    LeavesRequests s (rxEnable stop start dur s) := by
  have hmove : LeavesRequests s (moveWindow stop start dur s) := by
    rw [moveWindow_eq]
    exact .of_quiet rfl rfl rfl
  obtain ⟨-, e⟩ | ⟨-, -, e⟩ | ⟨-, -, e⟩ := rxEnable_cases stop start dur s <;> rw [e]
  · exact (LeavesRequests.refl s).answer _
  · exact (hmove.trans (emit_leavesRequests _ fun _ => rfl)).answer _
  · exact ((hmove.trans (applyRx_leavesRequests _)).trans (emit_leavesRequests _ fun _ => rfl)).answer _

theorem isRxEnabled_leavesRequests (s : State) : LeavesRequests s (isRxEnabled s) := by
  obtain ⟨-, e⟩ | ⟨-, e⟩ := isRxEnabled_cases s <;> rw [e]
  · exact (LeavesRequests.refl s).answer _
  · exact (LeavesRequests.refl s).answer _

theorem startRx_leavesRequests (s : State) : LeavesRequests s (startRx s) := by
  obtain ⟨-, e⟩ | ⟨-, e⟩ := startRx_cases s <;> rw [e]
  · exact (LeavesRequests.refl s).answer _
  · exact (applyRx_leavesRequests s).answer _

/-- A DATA_REQ that is handled submits one request of its handle. -/
theorem dataReq_accounts {c : Params} {h l : Byte} {ind ack : Bool} {s : State} (hon : s.life = .on) :
    Accounts (oneOf h) s (dataReq c h l ind ack s) := by
  obtain ⟨hoff, -⟩ | ⟨-, -, e⟩ | ⟨-, -, -, e⟩ | ⟨-, -, -, hidle, e⟩ | ⟨-, -, -, -, e⟩ := dataReq_cases c h l ind ack s
  · exact absurd hon hoff
  · rw [e]; exact (confData_accounts s h _).answer _
  · rw [e]; exact (enqueue_accounts c h l ack s).answer _
  · rw [e]; exact (startRequest_accounts hidle).answer _
  · rw [e]; exact (confData_accounts s h _).answer _

theorem ccaResult_accounts (c : Params) (busy : Bool) (s : State) : Accounts noneOf s (ccaResult c busy s) := by
  have hbusy : s.eng.st = .ccaWait → s.eng.st ≠ .idle := fun h => by rw [h]; decide
  obtain ⟨-, e⟩ | ⟨-, hst, -, -, e⟩ | ⟨-, hst, -, -, e⟩ | ⟨-, hst, -, e⟩ := ccaResult_cases c busy s <;> rw [e]
  · exact ((LeavesRequests.refl s).answer _).accounts
  · exact (accounts_of_settles ((setEng_frame s _).trans (finish_frame _ _)) (hbusy hst)
      (finish_settles _ (busyCca c s))).answer _
  · exact (accounts_of_settles ((setEng_frame s _).trans (startBackoff_frame c _)) (hbusy hst)
      (startBackoff_settles c (busyCca c s))).answer _
  · exact (accounts_of_settles (transmit_frame s) (hbusy hst) (transmit_settles s)).answer _

theorem txDone_accounts (c : Params) (s : State) : Accounts noneOf s (txDone c s) := by
  have hbusy : s.eng.st = .txWait → s.eng.st ≠ .idle := fun h => by rw [h]; decide
  obtain ⟨-, e⟩ | ⟨-, hst, -, e⟩ | ⟨-, hst, -, -, e⟩ | ⟨-, hst, -, -, e⟩ := txDone_cases c s <;> rw [e]
  · exact ((LeavesRequests.refl s).answer _).accounts
  · exact (accounts_of_settles (finish_frame _ s) (hbusy hst) (finish_settles _ s)).answer _
  · exact (accounts_of_settles (ackFail_frame c s) (hbusy hst) (ackFail_settles c s)).answer _
  · refine (accounts_of_settles (setEng_frame s _) (hbusy hst) ?_).answer _
    exact ⟨[], (List.append_nil _).symm, rfl, fun b => by simp [confirmsOf, engineLive]⟩

theorem ackRx_accounts (seq : Byte) (s : State) : Accounts noneOf s (ackRx seq s) := by
  obtain ⟨-, e⟩ | ⟨-, hst, -, e⟩ := ackRx_cases seq s <;> rw [e]
  · exact ((LeavesRequests.refl s).answer _).accounts
  · exact (accounts_of_settles (finish_frame _ s) (by rw [hst]; decide) (finish_settles _ s)).answer _

theorem oldest_handle {q : List Entry} {h : Byte} {e : Entry} (he : oldest q h = some e) : e.handle = h := by
  obtain ⟨_, -, -, -, hh⟩ := oldest_eq_some he
  exact hh

/-- Removing the oldest entry of a handle takes one request of that handle, and none of another. -/
theorem countP_withoutOldest {q : List Entry} {h : Byte} {e : Entry} (he : oldest q h = some e) (b : Byte) :
    q.countP (fun e => decide (e.handle = b)) =
      (withoutOldest q h).countP (fun e => decide (e.handle = b)) + oneOf h b := by
  induction q with
  | nil => cases he
  | cons x q ih =>
    by_cases hx : x.handle = h
    · simp [withoutOldest, hx, List.countP_cons, oneOf]
    · have he' : oldest q h = some e := by simpa [oldest, hx] using he
      have hq := ih he'
      simp only [withoutOldest] at hq
      simp only [withoutOldest, hx, decide_false, Bool.false_eq_true, not_false_eq_true, List.eraseP_cons_of_neg,
        List.countP_cons, hq]
      omega

/-- A released request leaves the queue and is confirmed once or stands in the engine (R222). -/
theorem indRelease_accounts (c : Params) (h : Byte) (s : State) : Accounts noneOf s (indRelease c h s) := by
  obtain ⟨-, e⟩ | ⟨-, -, e⟩ | ⟨-, -, -, e⟩ | ⟨-, hidle, en, hen, e⟩ := indRelease_cases c h s <;> rw [e]
  · exact ((LeavesRequests.refl s).answer _).accounts
  · exact ((LeavesRequests.refl s).answer _).accounts
  · exact ((LeavesRequests.refl s).answer _).accounts
  · obtain ⟨es, hes, hacc⟩ := startRequest_accounts (c := c) (h := en.handle) (l := en.len) (a := en.ackReq)
      (s := s.setQueue (withoutOldest s.queue h)) hidle
    refine ⟨es, hes, fun b => ?_⟩
    have hcount := countP_withoutOldest hen b
    rw [← oldest_handle hen] at hcount
    have hlive : liveRequests s b = liveRequests (s.setQueue (withoutOldest s.queue h)) b + oneOf en.handle b := by
      simp only [liveRequests_eq, State.setQueue_queue, State.setQueue_eng, hcount, oldest_handle hen]
      omega
    exact (hacc b).trans hlive.symm

/-- PURGE removes the oldest entry of its handle, if there is one, without a data confirm (R224, R225). -/
theorem purge_requests {k : Byte} {s : State} (hon : s.life = .on) (h : Byte) :
    ∃ es, (purge k s).events = s.events ++ es ∧ confirmsOf h es = 0 ∧
      liveRequests (purge k s) h + (if k = h ∧ (findHandle s.queue k).isSome then 1 else 0) = liveRequests s h := by
  obtain ⟨hoff, -⟩ | ⟨-, hnone, e⟩ | ⟨-, ⟨en, hen⟩, e⟩ := purge_cases k s
  · exact absurd hon hoff
  · refine ⟨_, by rw [e]; rfl, rfl, ?_⟩
    rw [e, oldest_eq_none.mp hnone]
    simp [liveRequests_eq]
  · refine ⟨_, by rw [e]; rfl, rfl, ?_⟩
    obtain ⟨i, hi, -⟩ := oldest_eq_some hen
    rw [e, hi]
    simp only [liveRequests_eq, State.done_queue, State.emit_queue, State.setQueue_queue, State.done_eng, State.emit_eng,
      State.setQueue_eng, countP_withoutOldest hen h, oneOf, Option.isSome_some, and_true]
    omega

/-- In ON, an operation other than RESET, DEINIT and PURGE accounts for what it submits. -/
theorem exec_accounts {i : Instr} {s t : State} (h : exec i s = .next t) (hon : s.life = .on) (hreset : i ≠ .reset)
    (hdeinit : i ≠ .deinit) (hpurge : ∀ k, i ≠ .purge k) : Accounts (submits i) s t := by
  have hanswer : ∀ r, Accounts noneOf s (s.answer r) := fun r => ((LeavesRequests.refl s).answer r).accounts
  cases i <;> cases h
  case init ih => rw [init_of_life_ne_off (by rw [hon]; decide)]; exact hanswer _
  case deinit => exact absurd rfl hdeinit
  case reset => exact absurd rfl hreset
  case pibSet attr v => exact (pibSet_leavesRequests attr v s).accounts
  case pibGet attr => exact (pibGet_leavesRequests attr s).accounts
  case hdrEncode => exact hanswer _
  case hdrDecode => exact hanswer _
  case frameParse => exact hanswer _
  case frameBuild => exact hanswer _
  case classify => exact hanswer _
  case dataReq => exact dataReq_accounts hon
  case tick n =>
    obtain ⟨-, e⟩ | ⟨-, e⟩ := tick_cases Config.platform n s <;> rw [e]
    · exact hanswer _
    · exact (ticks_accounts _ _ s).answer _
  case ccaResult busy => exact ccaResult_accounts _ busy s
  case txDone => exact txDone_accounts _ s
  case ackRx seq => exact ackRx_accounts seq s
  case indRelease h => exact indRelease_accounts _ h s
  case purge k => exact absurd rfl (hpurge k)
  case rxEnable stop start dur => exact (rxEnable_leavesRequests stop start dur s).accounts
  case isRxEnabled => exact (isRxEnabled_leavesRequests s).accounts
  case startRx => exact (startRx_leavesRequests s).accounts

/-- RESET and DEINIT of an ON block end every request without a data confirm (R114, R113). -/
theorem reset_or_deinit_requests {i : Instr} {s t : State} (h : exec i s = .next t) (hon : s.life = .on)
    (hi : i = .reset ∨ i = .deinit) (b : Byte) :
    ∃ es, t.events = s.events ++ es ∧ confirmsOf b es = 0 ∧ liveRequests t b = 0 := by
  obtain rfl | rfl := hi <;> cases h
  · rw [resetBlock_of_on hon]
    exact ⟨_, rfl, rfl, rfl⟩
  · obtain ⟨h, -⟩ | ⟨h, -⟩ | ⟨-, e⟩ := deinit_cases s
    · cases hon.symm.trans h
    · cases hon.symm.trans h
    · rw [e]
      exact ⟨[], (List.append_nil _).symm, rfl, rfl⟩

/-- Settles O56: PURGE, RESET and DEINIT apart, it is `exec_accounts`. -/
theorem everyRequestIsConfirmedOnce : Obligations.EveryRequestIsConfirmedOnce := by
  intro i s t h hon hexec
  by_cases hend : i = .reset ∨ i = .deinit
  · obtain ⟨es, hes, hconf, hlive⟩ := reset_or_deinit_requests hexec hon hend h
    refine ⟨es, hes, fun _ => ⟨hconf, hlive⟩, ?_, fun hreset hdeinit => absurd hend (not_or_intro hreset hdeinit)⟩
    rintro k rfl
    simp at hend
  · by_cases hpurge : ∃ k, i = .purge k
    · obtain ⟨k, rfl⟩ := hpurge
      cases hexec
      obtain ⟨es, hes, hconf, hlive⟩ := purge_requests (k := k) hon h
      refine ⟨es, hes, fun hi => absurd hi hend, ?_, fun _ _ hk => absurd rfl (hk k)⟩
      rintro _ ⟨⟩
      exact ⟨hconf, hlive⟩
    · have hk : ∀ k, i ≠ .purge k := fun k hik => hpurge ⟨k, hik⟩
      obtain ⟨es, hes, hacc⟩ := exec_accounts hexec hon (fun hi => hend (.inl hi)) (fun hi => hend (.inr hi)) hk
      exact ⟨es, hes, fun hi => absurd hi hend, fun k hi => absurd hi (hk k), fun _ _ _ => hacc h⟩

end Sys2Proof
end

section
/-! PROOFS. PIB access (spec/41_pib_lifecycle.md R115 to R117, spec/45_rx_scheduler.md R256): what PIB_SET writes, which
check it reports, and what PIB_GET reads. -/

namespace Sys2Proof

open Machine

/-! ## The attribute identifiers (R24) -/

/-- The identifier of a PIB register. -/
def attrOf : PibReg → Byte
  | .minBE => 0x4F#8
  | .maxBE => 0x57#8
  | .maxCSMABackoffs => 0x4E#8
  | .maxFrameRetries => 0x59#8
  | .ackWaitDuration => 0x40#8
  | .maxFrameTotalWaitTime => 0x58#8
  | .transactionPersistenceTime => 0x55#8
  | .dsn => 0x4C#8
  | .rxOnWhenIdle => 0x52#8
  | .disableCCA => 0x80#8

theorem attrReg_attrOf (r : PibReg) : attrReg (attrOf r) = some r := by cases r <;> rfl

theorem eq_attrOf_of_attrReg {attr : Byte} {r : PibReg} (h : attrReg attr = some r) : attr = attrOf r := by
  unfold attrReg at h
  split at h <;> cases h <;> rfl

theorem attrReg_eq_none_iff (attr : Byte) : attrReg attr = none ↔ ∀ r, attr ≠ attrOf r := by
  constructor
  · rintro h r rfl
    rw [attrReg_attrOf] at h
    cases h
  · intro h
    cases hr : attrReg attr with
    | none => rfl
    | some r => exact absurd (eq_attrOf_of_attrReg hr) (h r)

theorem attrOf_mem (r : PibReg) :
    attrOf r ∈ [0x40#8, 0x4C#8, 0x4E#8, 0x4F#8, 0x52#8, 0x55#8, 0x57#8, 0x58#8, 0x59#8, 0x80#8] := by
  cases r <;> decide

/-! ## A legal SET (R115, R256) -/

/-- A SET of another register than `rxOnWhenIdle` leaves the receiver alone. -/
theorem writeReg_of_ne {r : PibReg} (hr : r ≠ .rxOnWhenIdle) (v : Half) (s : State) :
    writeReg r v s = s.setPib (writePib s.pib r v) :=
  if_pos (rxOnWhenIdle_writePib s.pib v hr)

theorem exec_pibSet_of_legal {s : State} {r : PibReg} {v : Half} (hon : s.life = .on) (hr : r ≠ .rxOnWhenIdle)
    (hlegal : legalPib s.pib r v = true) :
    exec (.pibSet (attrOf r) v) s = .next { s with
      pib := writePib s.pib r v, events := s.events ++ [.confSet (attrOf r) .success],
      responses := s.responses ++ [⟨true, 0, []⟩] } := by
  refine congrArg Host.Outcome.next ?_
  rw [pibSet_of_legal hon (attrReg_attrOf r) hlegal, writeReg_of_ne hr]
  rfl

/-- The value of a one-bit register. -/
def bitValue (b : Bool) : Half := if b then 1 else 0

theorem getLsbD_bitValue (b : Bool) : (bitValue b).getLsbD 0 = b := by cases b <;> rfl

theorem bitValue_le_one (b : Bool) : (bitValue b).toNat ≤ 1 := by cases b <;> decide

theorem setWidth_ofBool_eq_bitValue (b : Bool) : (BitVec.ofBool b).setWidth 16 = bitValue b := by cases b <;> rfl

/-- A SET of the value `rxOnWhenIdle` has leaves the receiver alone, any other one drives it before the confirm. -/
theorem exec_pibSet_rxOnWhenIdle {s : State} (hon : s.life = .on) (b : Bool) :
    exec (.pibSet 0x52 (bitValue b)) s = .next
      (if b = s.pib.rxOnWhenIdle then
        { s with events := s.events ++ [.confSet 0x52 .success], responses := s.responses ++ [⟨true, 0, []⟩] }
      else
        { s with
          pib := { s.pib with rxOnWhenIdle := b }, radioRx := b || s.windowActive,
          events := s.events ++ [.radioRx (b || s.windowActive), .confSet 0x52 .success],
          responses := s.responses ++ [⟨true, 0, []⟩] }) := by
  refine congrArg Host.Outcome.next ?_
  have hlegal : legalPib s.pib .rxOnWhenIdle (bitValue b) = true := decide_eq_true (bitValue_le_one b)
  have hwrite : writePib s.pib .rxOnWhenIdle (bitValue b) = { s.pib with rxOnWhenIdle := b } := by
    rw [writePib, getLsbD_bitValue]
  rw [pibSet_of_legal (attr := 0x52) hon rfl hlegal, writeReg, hwrite]
  by_cases hb : b = s.pib.rxOnWhenIdle
  · have hsame : { s.pib with rxOnWhenIdle := b } = s.pib := by rw [hb]
    rw [if_pos hb, if_pos hb, hsame]
    rfl
  · have hevents (e e' : Event) : s.events ++ [e] ++ [e'] = s.events ++ [e, e'] := List.append_assoc ..
    rw [if_neg hb, if_neg hb, ← hevents]
    rfl

/-- Settles O17: each register's legal values are those of the hypothesis, and the write of `rxOnWhenIdle` is
`exec_pibSet_rxOnWhenIdle`. -/
theorem pibSetWritesALegalValue : Obligations.PibSetWritesALegalValue := by
  intro s v hon
  refine ⟨?minBE, ?maxBE, ?maxCSMABackoffs, ?maxFrameRetries, ?ack, ?wait, ?persistence, fun b => ⟨?disableCCA, ?rx⟩⟩
  case minBE => exact fun h => exec_pibSet_of_legal (r := .minBE) hon (by decide) (decide_eq_true h)
  case maxBE =>
    intro hlow hhigh
    have hlegal : legalPib s.pib .maxBE v = true :=
      Bool.and_eq_true_iff.mpr ⟨decide_eq_true hlow, decide_eq_true hhigh⟩
    exact exec_pibSet_of_legal hon (by decide) hlegal
  case maxCSMABackoffs => exact fun h => exec_pibSet_of_legal (r := .maxCSMABackoffs) hon (by decide) (decide_eq_true h)
  case maxFrameRetries => exact fun h => exec_pibSet_of_legal (r := .maxFrameRetries) hon (by decide) (decide_eq_true h)
  case ack => exact exec_pibSet_of_legal (r := .ackWaitDuration) hon (by decide) rfl
  case wait => exact exec_pibSet_of_legal (r := .maxFrameTotalWaitTime) hon (by decide) rfl
  case persistence => exact exec_pibSet_of_legal (r := .transactionPersistenceTime) hon (by decide) rfl
  case disableCCA =>
    have hset := exec_pibSet_of_legal (r := .disableCCA) hon (by decide) (decide_eq_true (bitValue_le_one b))
    have hwrite : writePib s.pib .disableCCA (bitValue b) = { s.pib with disableCCA := b } := by
      rw [writePib, getLsbD_bitValue]
    rw [hwrite] at hset
    exact hset
  case rx => exact exec_pibSet_rxOnWhenIdle hon b

/-! ## A SET that fails a check (R115, R288) -/

theorem pibSet_of_unsupported {s : State} {attr : Byte} (hon : s.life = .on) (hr : attrReg attr = none) (v : Half) :
    pibSet attr v s = (s.emit (.confSet attr .unsupportedAttribute)).done := by
  simp only [pibSet, hon, hr, if_true]

theorem pibSet_dsn {s : State} (hon : s.life = .on) (v : Half) :
    pibSet 0x4C v s = (s.emit (.confSet 0x4C .readOnly)).done := if_pos hon

/-- Settles O18: an identifier outside the list has no register, `dsn` is read-only, and every value outside the bounds
given is illegal. -/
theorem pibSetReportsTheFirstFailedCheck : Obligations.PibSetReportsTheFirstFailedCheck := by
  refine fun s attr v hon => ⟨fun hmem => ?_, congrArg Host.Outcome.next (pibSet_dsn hon v), ?_⟩
  · have hnone : attrReg attr = none := (attrReg_eq_none_iff attr).mpr fun r hr => hmem (hr ▸ attrOf_mem r)
    exact congrArg Host.Outcome.next (pibSet_of_unsupported hon hnone v)
  · have hill : ∀ r, r ≠ .dsn → ¬legalPib s.pib r v = true → attr = attrOf r →
        exec (.pibSet attr v) s = .next { s with
          events := s.events ++ [.confSet attr .invalidParameter], responses := s.responses ++ [⟨true, 0, []⟩] } := by
      rintro r hr hillegal rfl
      exact exec_pibSet_of_illegal hon (attrReg_attrOf r) hr hillegal
    rintro (⟨hattr, hv⟩ | ⟨hattr, hv⟩ | ⟨hattr, hv⟩ | ⟨hattr, hv⟩ | ⟨hattr, hv⟩ | ⟨hattr, hv⟩)
    · exact hill .minBE (by decide) (by rw [legalPib, decide_eq_true_iff]; omega) hattr
    · exact hill .maxBE (by decide)
        (by rw [legalPib, Bool.and_eq_true, decide_eq_true_iff, decide_eq_true_iff]; omega) hattr
    · exact hill .maxCSMABackoffs (by decide) (by rw [legalPib, decide_eq_true_iff]; omega) hattr
    · exact hill .maxFrameRetries (by decide) (by rw [legalPib, decide_eq_true_iff]; omega) hattr
    · exact hill .rxOnWhenIdle (by decide) (by rw [legalPib, decide_eq_true_iff]; omega) hattr
    · exact hill .disableCCA (by decide) (by rw [legalPib, decide_eq_true_iff]; omega) hattr

/-! ## PIB_GET (R117) -/

theorem pibGet_of_unsupported {s : State} {attr : Byte} (hon : s.life = .on) (hr : attrReg attr = none) :
    pibGet attr s = (s.emit (.confGet attr .unsupportedAttribute 0#16)).done := by
  simp only [pibGet, hon, hr, if_true]

/-- Settles O19: the identifiers tested are those of the registers, in turn. -/
theorem pibGetReportsTheRegister : Obligations.PibGetReportsTheRegister := by
  intro s attr hon
  refine congrArg Host.Outcome.next ?_
  cases hr : attrReg attr with
  | none =>
    have hne := (attrReg_eq_none_iff attr).mp hr
    rw [pibGet_of_unsupported hon hr, if_neg (show attr ≠ 0x4F#8 from hne .minBE),
      if_neg (show attr ≠ 0x57#8 from hne .maxBE), if_neg (show attr ≠ 0x4E#8 from hne .maxCSMABackoffs),
      if_neg (show attr ≠ 0x59#8 from hne .maxFrameRetries), if_neg (show attr ≠ 0x40#8 from hne .ackWaitDuration),
      if_neg (show attr ≠ 0x58#8 from hne .maxFrameTotalWaitTime),
      if_neg (show attr ≠ 0x55#8 from hne .transactionPersistenceTime), if_neg (show attr ≠ 0x4C#8 from hne .dsn),
      if_neg (show attr ≠ 0x52#8 from hne .rxOnWhenIdle), if_neg (show attr ≠ 0x80#8 from hne .disableCCA)]
    rfl
  | some r =>
    obtain rfl := eq_attrOf_of_attrReg hr
    rw [pibGet_of_attrReg hon hr]
    cases r
    case rxOnWhenIdle => rw [readPib, setWidth_ofBool_eq_bitValue]; rfl
    case disableCCA => rw [readPib, setWidth_ofBool_eq_bitValue]; rfl
    all_goals rfl

end Sys2Proof
end

section
/-! PROOFS. The codec's responses (spec/42_codec.md R140 to R147), and the operations that only read (spec/20_memory.md
R67). -/

namespace Sys2Proof

open Machine

/-! ## HDR_ENCODE and HDR_DECODE (R140, R141) -/

/-- The length of a value is its two bytes side by side, the later one high. -/
theorem parseValue_headerLen (status code b1 b2 : Byte) :
    parseValue status code (headerLen b1 b2) = (status ++ code ++ b2 ++ b1 : BitVec 32) := by
  have hlen : fieldAt (headerLen b1 b2) 0 = fieldAt b2 8 ||| fieldAt b1 0 := by
    apply BitVec.eq_of_getLsbD_eq
    intro i hi
    by_cases hlow : i < 8
    · simp [headerLen, hi, hlow, show ¬ 8 ≤ i by omega, show i < 16 by omega]
    · by_cases hhigh : i < 16
      · simp [headerLen, hi, hlow, show 8 ≤ i by omega, hhigh]
      · simp [headerLen, hi, hlow, hhigh, BitVec.getLsbD_of_ge b1 i (by omega),
          BitVec.getLsbD_of_ge b2 (i - 8) (by omega)]
  rw [parseValue, hlen, ← BitVec.or_assoc, fieldAt_bytes]

/-- Settles O22: the fields of both values are bytes side by side. -/
theorem headerEncodeAndDecode : Obligations.HeaderEncodeAndDecode := by
  refine fun s code b1 b2 len => ⟨congrArg (fun r => Host.Outcome.next (s.answer r)) ?_,
    congrArg (fun r => Host.Outcome.next (s.answer r)) ?_⟩
  · have hvalue := fieldAt_bytes 0#8 (len.extractLsb' 8 8) (len.extractLsb' 0 8) code
    rw [fieldAt_zero, BitVec.zero_or] at hvalue
    rw [hdrEncode, hvalue]
    rfl
  · rw [hdrDecode, parseValue_headerLen]
    rfl

/-! ## CLASSIFY (R142) -/

theorem classifyCode_commandEvent_number (code : Byte) :
    (classifyCode .commandEvent code).number = BitVec.ofNat 8
      (if code.toNat = 0 then 0 else if code.toNat ≤ 0x0C then 1 else if code.toNat ≤ 0x0F then 2
       else if code.toNat ≤ 0x80 then 0 else if code.toNat ≤ 0x91 then 3 else 4) := by
  have hcode := code.isLt
  by_cases hzero : code.toNat = 0
  · simp [classifyCode, hzero, CodeClass.number]
  by_cases hcommand : code.toNat ≤ 0x0C
  · rw [classifyCode_command ⟨by omega, hcommand⟩, if_neg hzero, if_pos hcommand]
    rfl
  rw [if_neg hzero, if_neg hcommand]
  by_cases hreserved : code.toNat ≤ 0x0F
  · simp only [classifyCode]
    rw [if_neg (by omega), if_pos (by omega), if_pos hreserved]
    rfl
  rw [if_neg hreserved]
  by_cases hgap : code.toNat ≤ 0x80
  · simp only [classifyCode]
    rw [if_neg (by omega), if_neg (by omega), if_neg (by omega), if_neg (by omega), if_pos hgap]
    rfl
  rw [if_neg hgap]
  by_cases hevent : code.toNat ≤ 0x91
  · rw [classifyCode_event ⟨by omega, hevent⟩, if_pos hevent]
    rfl
  · simp only [classifyCode]
    rw [if_neg (by omega), if_neg (by omega), if_neg (by omega), if_pos (by omega), if_neg hevent]
    rfl

theorem classifyCode_data_number (code : Byte) :
    (classifyCode .data code).number = BitVec.ofNat 8 (if code = 0x01#8 then 5 else if code = 0x81#8 then 6 else 0) := by
  simp only [classifyCode]
  split_ifs <;> rfl

theorem setWidth_ofNat_of_le_six {n : Nat} (h : n ≤ 6) : (BitVec.ofNat 8 n).setWidth 32 = BitVec.ofNat 32 n := by
  apply BitVec.eq_of_toNat_eq
  simp only [BitVec.toNat_setWidth, BitVec.toNat_ofNat]
  omega

/-- Settles O23: the class numbers of `classifyCode_commandEvent_number` and `classifyCode_data_number`, zero-extended. -/
theorem classifyGivesTheClassNumber : Obligations.ClassifyGivesTheClassNumber := by
  intro s code ch
  refine congrArg (fun v => Host.Outcome.next (s.answer ⟨true, v, []⟩)) ?_
  cases ch with
  | commandEvent =>
    rw [classifyCode_commandEvent_number]
    refine setWidth_ofNat_of_le_six ?_
    split_ifs <;> omega
  | data =>
    rw [classifyCode_data_number]
    refine setWidth_ofNat_of_le_six ?_
    split_ifs <;> omega

/-! ## FRAME_PARSE and FRAME_BUILD (R143, R145, R147) -/

/-- The commands are the codes 0x01 to 0x0C. -/
theorem classifyCode_eq_command_iff (code : Byte) :
    classifyCode .commandEvent code = .command ↔ 0x01 ≤ code.toNat ∧ code.toNat ≤ 0x0C := by
  refine ⟨fun h => ?_, classifyCode_command⟩
  simp only [classifyCode] at h
  split_ifs at h with hcommand
  exact hcommand

/-- The events are the codes 0x81 to 0x91. -/
theorem classifyCode_eq_event_iff (code : Byte) :
    classifyCode .commandEvent code = .event ↔ 0x81 ≤ code.toNat ∧ code.toNat ≤ 0x91 := by
  refine ⟨fun h => ?_, classifyCode_event⟩
  simp only [classifyCode] at h
  split_ifs at h with _ _ hevent
  exact hevent

theorem classifyCode_eq_dataReq_iff (code : Byte) : classifyCode .data code = .dataReq ↔ code = 0x01#8 := by
  unfold classifyCode
  split_ifs <;> simp_all

theorem classifyCode_eq_dataInd_iff (code : Byte) : classifyCode .data code = .dataInd ↔ code = 0x81#8 := by
  unfold classifyCode
  split_ifs <;> simp_all

/-- The codes a channel and a direction accept (R147). -/
theorem acceptable_eq_false_iff (ch : Channel) (dir : Direction) (code : Byte) :
    acceptable ch dir code = false ↔
      ¬ ((ch = .commandEvent ∧ dir = .inbound ∧ 0x01 ≤ code.toNat ∧ code.toNat ≤ 0x0C) ∨
        (ch = .commandEvent ∧ dir = .outbound ∧ 0x81 ≤ code.toNat ∧ code.toNat ≤ 0x91) ∨
        (ch = .data ∧ dir = .inbound ∧ code = 0x01#8) ∨ (ch = .data ∧ dir = .outbound ∧ code = 0x81#8)) := by
  cases ch <;> cases dir <;>
    simp [acceptable, classifyCode_eq_command_iff, classifyCode_eq_event_iff, classifyCode_eq_dataReq_iff,
      classifyCode_eq_dataInd_iff]

theorem frameParse_of_short {c : Params} {dir : Direction} {ch : Channel} {buf : List Byte} (h : buf.length < 3) :
    frameParse c dir ch buf = parseResponse .shortHeader 0 0 [] := by
  unfold frameParse
  split
  · simp only [List.length_cons] at h
    omega
  · rfl

/-- Settles O24: the value of each branch of FRAME_PARSE by `parseValue_headerLen`, the checks by `headerLen_toNat` and
`acceptable_eq_false_iff`. -/
theorem frameParseChecksInOrder : Obligations.FrameParseChecksInOrder := by
  refine fun s dir ch => ⟨fun hshort => ?_, fun code b1 b2 payload hbuf => ?_⟩
  · exact congrArg (fun r => Host.Outcome.next (s.answer r)) (frameParse_of_short hshort)
  · refine congrArg (fun r => Host.Outcome.next (s.answer r)) ?_
    have hlength : (code :: b1 :: b2 :: payload).length ≠ 3 + (b1.toNat + 256 * b2.toNat) ↔
        payload.length ≠ b1.toNat + 256 * b2.toNat := by
      simp only [List.length_cons]
      omega
    rw [hbuf]
    simp only [frameParse, headerLen_toNat, hlength, acceptable_eq_false_iff, parseResponse, parseValue_headerLen]
    rfl

/-- The two bytes of a length field are those of the number, while it fits (R62). -/
theorem headerBytes_ofNat {n : Nat} (h : n < 2 ^ 16) (code : Byte) :
    headerBytes code (BitVec.ofNat 16 n) = [code, BitVec.ofNat 8 n, BitVec.ofNat 8 (n / 256)] := by
  have hlow : (BitVec.ofNat 16 n).extractLsb' 0 8 = BitVec.ofNat 8 n := by
    apply BitVec.eq_of_toNat_eq
    simp only [BitVec.extractLsb'_toNat, BitVec.toNat_ofNat, Nat.shiftRight_eq_div_pow]
    omega
  have hhigh : (BitVec.ofNat 16 n).extractLsb' 8 8 = BitVec.ofNat 8 (n / 256) := by
    apply BitVec.eq_of_toNat_eq
    simp only [BitVec.extractLsb'_toNat, BitVec.toNat_ofNat, Nat.shiftRight_eq_div_pow]
    omega
  rw [headerBytes, hlow, hhigh]

/-- Settles O25: the branches of FRAME_BUILD; a payload that passes the first check has a length of 16 bits. -/
theorem frameBuildChecksInOrder : Obligations.FrameBuildChecksInOrder := by
  intro s code dir ch
  refine congrArg (fun r => Host.Outcome.next (s.answer r)) ?_
  simp only [frameBuild, acceptable_eq_false_iff, parseResponse, parseValue_eq_append]
  by_cases hlong : Config.platform.maxChciPayload.toNat < s.dataIn.length
  · rw [if_pos hlong, if_pos (show Config.maxChciPayload.toNat < s.dataIn.length from hlong)]
    rfl
  · have hfits : s.dataIn.length < 2 ^ 16 := (Nat.le_of_not_lt hlong).trans_lt Config.maxChciPayload.isLt
    rw [if_neg hlong, if_neg (show ¬Config.maxChciPayload.toNat < s.dataIn.length from hlong), headerBytes_ofNat hfits]
    rfl

/-! ## The operations that only read (R67) -/

theorem exec_pibGet_repeats (s : State) (attr : Byte) :
    ∃ (es : List Event) (r : Response),
      (∀ fs rs, exec (.pibGet attr) { s with events := s.events ++ fs, responses := s.responses ++ rs } =
        .next { s with events := s.events ++ fs ++ es, responses := s.responses ++ rs ++ [r] }) ∧
      (s.life = .on → ∃ st v, es = [.confGet attr st v]) := by
  by_cases hon : s.life = .on
  · cases hr : attrReg attr with
    | none =>
      exact ⟨[.confGet attr .unsupportedAttribute 0], ⟨true, 0, []⟩, fun fs rs => congrArg Host.Outcome.next
        (pibGet_of_unsupported (s := { s with events := s.events ++ fs, responses := s.responses ++ rs }) hon hr), fun _ => ⟨_, _, rfl⟩⟩
    | some r =>
      exact ⟨[.confGet attr .success (readPib s.pib r)], ⟨true, 0, []⟩, fun fs rs => congrArg Host.Outcome.next
        (pibGet_of_attrReg (s := { s with events := s.events ++ fs, responses := s.responses ++ rs }) hon hr), fun _ => ⟨_, _, rfl⟩⟩
  · refine ⟨[], ⟨false, 0, []⟩, fun fs rs => ?_, fun h => absurd h hon⟩
    rw [List.append_nil]
    exact congrArg Host.Outcome.next (if_neg hon)

/-- IS_RX_ENABLED reads the lifecycle and the decision, which no response or event is part of. -/
theorem exec_isRxEnabled_repeats (s : State) :
    ∃ r : Response, ∀ rs, exec .isRxEnabled { s with responses := s.responses ++ rs } =
      .next { s with responses := s.responses ++ rs ++ [r] } := by
  by_cases hon : s.life = .on
  · exact ⟨⟨true, bitWord (rxOn s), []⟩, fun rs => congrArg Host.Outcome.next (if_pos hon)⟩
  · exact ⟨⟨false, 0, []⟩, fun rs => congrArg Host.Outcome.next (if_neg hon)⟩

/-- Settles O28: the response, and for PIB_GET the confirm, depends on no response and no event. -/
theorem readingOperationsAreIdempotent : Obligations.ReadingOperationsAreIdempotent := by
  rintro i s (hcodec | ⟨attr, rfl⟩ | rfl)
  · obtain ⟨r, -, hr⟩ := codecIsStateless i s.dataIn hcodec
    refine ⟨[], r, ?_, ?_, fun _ => rfl, ?_⟩
    · rw [List.append_nil]
      exact hr s rfl
    · rw [List.append_nil, List.append_nil]
      exact hr { s with responses := s.responses ++ [r] } rfl
    · rintro attr rfl
      cases hcodec
  · obtain ⟨es, r, hrun, hes⟩ := exec_pibGet_repeats s attr
    refine ⟨es, r, ?_, hrun es [r], fun hne => absurd rfl (hne attr), ?_⟩
    · simpa only [List.append_nil] using hrun [] []
    · rintro _ ⟨⟩ hon
      exact hes hon
  · obtain ⟨r, hrun⟩ := exec_isRxEnabled_repeats s
    refine ⟨[], r, ?_, ?_, fun _ => rfl, nofun⟩
    · simpa only [List.append_nil] using hrun []
    · simpa only [List.append_nil] using hrun [r]

end Sys2Proof
end

section
/-! PROOFS. The engine's operations (spec/43_csma_engine.md R170 to R185): the next state of each, from that of the
procedures it calls. -/

namespace Sys2Proof

open Machine

/-! ## The next state of the engine's procedures -/

/-- A retransmission keeps `seq` and leaves `dsn` alone (R180). -/
theorem transmit_of_numbered {s : State} (h : s.eng.seqValid = true) :
    transmit s = { s with
      eng := { s.eng with st := .txWait }
      events := s.events ++ [.radioTx s.eng.seq s.eng.handle s.eng.len s.eng.ackReq] } := by
  rw [transmit, assignSeq_of_numbered h]
  rfl

/-- The first transmission takes `dsn`, which goes up by one and wraps (R180). -/
theorem transmit_of_unnumbered {s : State} (h : s.eng.seqValid = false) :
    transmit s = { s with
      pib := { s.pib with dsn := s.pib.dsn + 1 }
      eng := { s.eng with st := .txWait, seq := s.pib.dsn, seqValid := true }
      events := s.events ++ [.radioTx s.pib.dsn s.eng.handle s.eng.len s.eng.ackReq] } := by
  rw [transmit, assignSeq_of_unnumbered h]
  rfl

/-- UNIT_BACKOFF_PERIOD is at least 1 (R7), so a backoff of `r` periods is over at once exactly when `r` is 0. -/
theorem startBackoff_eq {s : State} {r : Nat} (hr : Config.backoffDraw s.draws % 2 ^ s.eng.BE.toNat = r) :
    startBackoff Config.platform s = { s with
      eng := { s.eng with
        st := if r = 0 then .ccaWait else .backoff, backoffTimer := r * Config.platform.unitBackoffPeriod }
      events := s.events ++ (if r = 0 then [.radioCca] else [])
      draws := s.draws + 1 } := by
  have hdraw : drawBackoff Config.platform s = r := hr
  have hunit : Config.platform.unitBackoffPeriod ≠ 0 := Nat.succ_ne_zero _
  unfold startBackoff
  rw [hdraw]
  by_cases hzero : r = 0
  · rw [if_pos (by rw [hzero, Nat.zero_mul]), if_pos hzero, if_pos hzero, hzero, Nat.zero_mul]
    rfl
  · rw [if_neg (Nat.mul_ne_zero hzero hunit), if_neg hzero, if_neg hzero, List.append_nil]
    rfl

/-- A cycle that may ask for a CCA starts with one backoff (R178, R179). -/
theorem startCycle_of_cca {s : State} {r : Nat} (hcca : s.eng.sDisableCCA = false) (hlimit : s.eng.sMaxCB ≠ 0)
    (hr : Config.backoffDraw s.draws % 2 ^ s.eng.sMinBE.toNat = r) :
    startCycle Config.platform s = { s with
      eng := { s.eng with
        st := if r = 0 then .ccaWait else .backoff, NB := 0, BE := s.eng.sMinBE,
        backoffTimer := r * Config.platform.unitBackoffPeriod }
      events := s.events ++ (if r = 0 then [.radioCca] else [])
      draws := s.draws + 1 } := by
  have hpos : ccaLimit Config.platform s.eng ≠ 0 := fun h => hlimit (BitVec.eq_of_toNat_eq h)
  rw [startCycle, if_neg (by rw [hcca]; decide), if_neg hpos]
  exact startBackoff_eq (s := cycleStart s) hr

theorem startCycle_of_disableCCA {c : Params} {s : State} (hcca : s.eng.sDisableCCA = true) :
    startCycle c s = transmit s := if_pos hcca

/-- With no CCA allowed the cycle ends the request (R174, R178). -/
theorem startCycle_of_no_cca {s : State} (hcca : s.eng.sDisableCCA = false) (hlimit : s.eng.sMaxCB = 0) :
    startCycle Config.platform s = finish .channelAccessFailure (cycleStart s) := by
  have hzero : ccaLimit Config.platform s.eng = 0 := congrArg BitVec.toNat hlimit
  rw [startCycle, if_neg (by rw [hcca]; decide), if_pos hzero]

/-- A failed attempt of a numbered request: NO_ACK, or the next cycle with the same `seq` (R182). -/
theorem ackFail_of_numbered {s : State} (hnumbered : s.eng.seqValid = true) :
    ackFail Config.platform s =
      if s.eng.sMaxFR.toNat ≤ s.eng.retries.toNat then
        { s with eng := Engine.idle, events := s.events ++ [.confData s.eng.handle .noAck] }
      else if s.eng.sDisableCCA then
        { s with
          eng := { s.eng with st := .txWait, retries := s.eng.retries + 1 }
          events := s.events ++ [.radioTx s.eng.seq s.eng.handle s.eng.len s.eng.ackReq] }
      else if s.eng.sMaxCB = 0 then
        { s with eng := Engine.idle, events := s.events ++ [.confData s.eng.handle .channelAccessFailure] }
      else
        { s with
          eng := { s.eng with
            st := if Config.backoffDraw s.draws % 2 ^ s.eng.sMinBE.toNat = 0 then .ccaWait else .backoff
            retries := s.eng.retries + 1, NB := 0, BE := s.eng.sMinBE,
            backoffTimer := Config.backoffDraw s.draws % 2 ^ s.eng.sMinBE.toNat * Config.platform.unitBackoffPeriod }
          events := s.events ++ (if Config.backoffDraw s.draws % 2 ^ s.eng.sMinBE.toNat = 0 then [.radioCca] else [])
          draws := s.draws + 1 } := by
  obtain ⟨hleft, e⟩ | ⟨hnone, e⟩ := ackFail_cases Config.platform s <;> rw [e]
  · rw [if_neg (Nat.not_le.mpr hleft)]
    cases hcca : s.eng.sDisableCCA with
    | true =>
      rw [startCycle_of_disableCCA (by exact hcca), transmit_of_numbered (by exact hnumbered), if_pos rfl]
      rfl
    | false =>
      rw [if_neg Bool.false_ne_true]
      by_cases hlimit : s.eng.sMaxCB = 0
      · rw [startCycle_of_no_cca (by exact hcca) (by exact hlimit), if_pos hlimit]
        rfl
      · rw [startCycle_of_cca (by exact hcca) (by exact hlimit) rfl, if_neg hlimit]
        simp only [State.setEng, hcca]
  · rw [if_pos hnone]
    rfl

/-- A request accepted with CCA disabled goes to the radio at once (R177, R178, R180). -/
theorem startRequest_of_disableCCA {c : Params} {h l : Byte} {a : Bool} {s : State}
    (hwait : s.pib.maxFrameTotalWaitTime ≠ 0) (hcca : s.pib.disableCCA = true) :
    startRequest c h l a s = { s with
      pib := { s.pib with dsn := s.pib.dsn + 1 }
      eng := { s.eng with
        st := .txWait, handle := h, len := l, ackReq := a, sMinBE := s.pib.minBE, sMaxBE := s.pib.maxBE,
        sMaxCB := s.pib.maxCSMABackoffs, sMaxFR := s.pib.maxFrameRetries, sAckWait := s.pib.ackWaitDuration,
        sDisableCCA := true, retries := 0, seq := s.pib.dsn, seqValid := true,
        totalTimer := s.pib.maxFrameTotalWaitTime }
      events := s.events ++ [.radioTx s.pib.dsn h l a] } := by
  rw [startRequest, if_neg hwait, startCycle_of_disableCCA (by exact hcca), transmit_of_unnumbered (by rfl), ← hcca]
  rfl

theorem startRequest_of_no_time {c : Params} {h l : Byte} {a : Bool} {s : State}
    (hwait : s.pib.maxFrameTotalWaitTime = 0) :
    startRequest c h l a s =
      { s with eng := Engine.idle, events := s.events ++ [.confData h c.totalWaitStatus] } := if_pos hwait

/-- A request accepted with CCA enabled starts its first cycle (R177, R178). -/
theorem startRequest_of_cca {h l : Byte} {a : Bool} {s : State} (hwait : s.pib.maxFrameTotalWaitTime ≠ 0)
    (hcca : s.pib.disableCCA = false) :
    startRequest Config.platform h l a s =
      if s.pib.maxCSMABackoffs = 0 then
        { s with eng := Engine.idle, events := s.events ++ [.confData h .channelAccessFailure] }
      else
        { s with
          eng := { s.eng with
            st := if Config.backoffDraw s.draws % 2 ^ s.pib.minBE.toNat = 0 then .ccaWait else .backoff
            handle := h, len := l, ackReq := a, sMinBE := s.pib.minBE, sMaxBE := s.pib.maxBE,
            sMaxCB := s.pib.maxCSMABackoffs, sMaxFR := s.pib.maxFrameRetries, sAckWait := s.pib.ackWaitDuration,
            sDisableCCA := false, BE := s.pib.minBE, NB := 0, retries := 0, seq := 0, seqValid := false,
            backoffTimer := Config.backoffDraw s.draws % 2 ^ s.pib.minBE.toNat * Config.platform.unitBackoffPeriod,
            totalTimer := s.pib.maxFrameTotalWaitTime }
          events := s.events ++ (if Config.backoffDraw s.draws % 2 ^ s.pib.minBE.toNat = 0 then [.radioCca] else [])
          draws := s.draws + 1 } := by
  rw [startRequest, if_neg hwait]
  by_cases hlimit : s.pib.maxCSMABackoffs = 0
  · rw [if_pos hlimit, startCycle_of_no_cca (by exact hcca) (by exact hlimit)]
    rfl
  · rw [if_neg hlimit, startCycle_of_cca (by exact hcca) (by exact hlimit) rfl]
    simp only [loadTotal, latchRequest, State.setEng, hcca]

/-! ## DATA_REQ (R170 to R173) -/

theorem enqueue_eq (c : Params) (h l : Byte) (a : Bool) (s : State) :
    enqueue c h l a s =
      if s.queue.length = c.indirectDepth then { s with events := s.events ++ [.confData h .transactionOverflow] }
      else if s.pib.transactionPersistenceTime = 0 then
        { s with events := s.events ++ [.confData h .transactionExpired] }
      else { s with queue := s.queue ++ [⟨h, l, a, s.pib.transactionPersistenceTime⟩] } := rfl

/-- Settles O29: the third case of `dataReq_cases` is the queue's, the last one the busy engine's. -/
theorem dataRequestHeldOrBusy : Obligations.DataRequestHeldOrBusy := by
  intro h l ind ack s hon hheld
  refine congrArg Host.Outcome.next ?_
  obtain ⟨hoff, -⟩ | ⟨-, hlen, e⟩ | ⟨-, hlen, rfl, e⟩ | ⟨-, -, rfl, hidle, -⟩ | ⟨-, hlen, rfl, -, e⟩ :=
    dataReq_cases Config.platform h l ind ack s
  · exact absurd hon hoff
  · rw [e, if_pos (by exact hlen)]
    rfl
  · rw [e, if_neg (Nat.not_lt.mpr (by exact hlen)), if_pos rfl, enqueue_eq]
    split_ifs <;> rfl
  · exact absurd hidle (hheld.resolve_left Bool.false_ne_true)
  · rw [e, if_neg (Nat.not_lt.mpr (by exact hlen)), if_neg Bool.false_ne_true]
    rfl

/-- Settles O30: the request is accepted, and StartRequest gives the rest. -/
theorem dataRequestAccepted : Obligations.DataRequestAccepted := by
  intro h l ack s hon hidle
  refine congrArg Host.Outcome.next ?_
  obtain ⟨hoff, -⟩ | ⟨-, hlen, e⟩ | ⟨-, -, hind, -⟩ | ⟨-, hlen, -, -, e⟩ | ⟨-, -, -, hbusy, -⟩ :=
    dataReq_cases Config.platform h l false ack s
  · exact absurd hon hoff
  · rw [e, if_pos (by exact hlen)]
    rfl
  · cases hind
  · rw [e, if_neg (Nat.not_lt.mpr (by exact hlen))]
    by_cases hwait : s.pib.maxFrameTotalWaitTime = 0
    · rw [if_pos hwait, startRequest_of_no_time hwait]
      rfl
    · rw [if_neg hwait]
      cases hcca : s.pib.disableCCA with
      | true =>
        rw [if_pos rfl, startRequest_of_disableCCA hwait hcca]
        simp only [State.done, State.respond, State.answer, hcca]
        rfl
      | false =>
        rw [if_neg Bool.false_ne_true, startRequest_of_cca hwait hcca]
        split_ifs <;> rfl
  · exact absurd hidle hbusy

/-! ## CCA_RESULT (R183) -/

/-- Settles O31: a clear channel is Transmit, numbered or not. -/
theorem clearChannelTransmits : Obligations.ClearChannelTransmits := by
  intro s hon hst
  refine congrArg Host.Outcome.next ?_
  obtain ⟨hrefused, -⟩ | ⟨-, -, hbusy, -⟩ | ⟨-, -, hbusy, -⟩ | ⟨-, -, -, e⟩ := ccaResult_cases Config.platform false s
  · exact absurd ⟨hon, hst⟩ hrefused
  · cases hbusy
  · cases hbusy
  · rw [e]
    cases hnumbered : s.eng.seqValid with
    | true => rw [transmit_of_numbered hnumbered]; rfl
    | false => rw [transmit_of_unnumbered hnumbered]; rfl

theorem busyCca_NB_toNat {s : State} (c : Params) (h : s.eng.NB.toNat < 7) :
    (busyCca c s).eng.NB.toNat = s.eng.NB.toNat + 1 := by
  show (s.eng.NB + 1).toNat = _
  bv_omega

/-- Settles O32: the two ends of a busy CCA, the second by `startBackoff_eq` at the grown exponent. -/
theorem busyChannelBacksOffOrFails : Obligations.BusyChannelBacksOffOrFails := by
  intro s hon hst hNB
  refine congrArg Host.Outcome.next ?_
  have hcount := busyCca_NB_toNat Config.platform hNB
  obtain ⟨hrefused, -⟩ | ⟨-, -, -, hlimit, e⟩ | ⟨-, -, -, hlimit, e⟩ | ⟨-, -, hclear, -⟩ :=
    ccaResult_cases Config.platform true s
  · exact absurd ⟨hon, hst⟩ hrefused
  · rw [hcount] at hlimit
    rw [e, if_pos (by exact hlimit)]
    rfl
  · rw [hcount] at hlimit
    have hr : Config.backoffDraw (busyCca Config.platform s).draws % 2 ^ (busyCca Config.platform s).eng.BE.toNat =
        Config.backoffDraw s.draws % 2 ^ min (s.eng.BE.toNat + 1) s.eng.sMaxBE.toNat := by
      rw [busyCca_BE_toNat]
      rfl
    rw [e, if_neg (Nat.not_le.mpr (by exact hlimit)), startBackoff_eq hr]
    rfl
  · cases hclear

/-- The snapshot a busy CCA leaves alone. -/
theorem busyCca_iterate_snapshot (c : Params) (s : State) (k : Nat) :
    ((busyCca c)^[k] s).eng.sMaxBE = s.eng.sMaxBE := by
  induction k with
  | zero => rfl
  | succ k ih => rw [Function.iterate_succ_apply', ← ih]; rfl

theorem grow_toNat (c : Params) (e : Engine) :
    (grow c e).toNat =
      match c.beGrowth with
      | .increment => min (e.BE.toNat + 1) e.sMaxBE.toNat
      | .double => min (2 * e.BE.toNat) e.sMaxBE.toNat := by
  unfold grow
  cases c.beGrowth
  · exact Nat.mod_eq_of_lt ((Nat.min_le_right _ _).trans_lt e.sMaxBE.isLt)
  · exact Nat.mod_eq_of_lt ((Nat.min_le_right _ _).trans_lt e.sMaxBE.isLt)

/-- Settles O33: induction on the number of busy results; once at `sMaxBE` the exponent stays there. -/
theorem backoffExponentAfterBusyResults : Obligations.BackoffExponentAfterBusyResults := by
  intro c s k hBE hle
  induction k with
  | zero =>
    rw [Function.iterate_zero_apply, hBE]
    cases c.beGrowth <;> simp [hle]
  | succ k ih =>
    have hgrow := grow_toNat c ((busyCca c)^[k] s).eng
    rw [busyCca_iterate_snapshot] at hgrow
    rw [Function.iterate_succ_apply']
    show (grow c ((busyCca c)^[k] s).eng).toNat = _
    rw [hgrow]
    cases hmode : c.beGrowth with
    | increment =>
      rw [hmode] at ih
      have ih' : ((busyCca c)^[k] s).eng.BE.toNat = min (s.eng.sMinBE.toNat + k) s.eng.sMaxBE.toNat := ih
      show min (_ + 1) _ = min (s.eng.sMinBE.toNat + (k + 1)) _
      omega
    | double =>
      rw [hmode] at ih
      have ih' : ((busyCca c)^[k] s).eng.BE.toNat = min (s.eng.sMinBE.toNat * 2 ^ k) s.eng.sMaxBE.toNat := ih
      have hpow : s.eng.sMinBE.toNat * 2 ^ (k + 1) = 2 * (s.eng.sMinBE.toNat * 2 ^ k) := by ring
      show min (2 * _) _ = min (s.eng.sMinBE.toNat * 2 ^ (k + 1)) _
      omega

/-! ## TX_DONE and ACK_RX (R184, R185) -/

/-- Settles O34: the second and the last case of `txDone_cases`. -/
theorem transmitDoneSucceedsOrWaits : Obligations.TransmitDoneSucceedsOrWaits := by
  intro s hon hst
  obtain ⟨hrefused, -⟩ | ⟨-, -, hnone, e⟩ | ⟨-, -, hreq, hzero, -⟩ | ⟨-, -, hreq, -, e⟩ :=
    txDone_cases Config.platform s
  · exact absurd ⟨hon, hst⟩ hrefused
  · exact ⟨fun _ => congrArg Host.Outcome.next e, fun hreq => (nomatch hnone.symm.trans hreq)⟩
  · exact ⟨fun hnone => (nomatch hnone.symm.trans hreq), fun _ hwait => absurd hzero hwait⟩
  · exact ⟨fun hnone => (nomatch hnone.symm.trans hreq), fun _ _ => congrArg Host.Outcome.next e⟩

/-- Settles O35: with no window TX_DONE is AckFail of a numbered request. -/
theorem zeroAckWindowFailsTheAttempt : Obligations.ZeroAckWindowFailsTheAttempt := by
  intro s hon hst hreq hzero hnumbered
  refine congrArg Host.Outcome.next ?_
  obtain ⟨hrefused, -⟩ | ⟨-, -, hnone, -⟩ | ⟨-, -, -, -, e⟩ | ⟨-, -, -, hwait, -⟩ := txDone_cases Config.platform s
  · exact absurd ⟨hon, hst⟩ hrefused
  · cases hnone.symm.trans hreq
  · rw [e, ackFail_of_numbered hnumbered, ← hst]
    split_ifs <;> rfl
  · exact absurd hzero hwait

/-- Settles O36: the awaited ACK finishes the request. -/
theorem matchingAckSucceeds : Obligations.MatchingAckSucceeds :=
  fun _ hon hst => congrArg Host.Outcome.next (if_pos ⟨hon, hst, rfl⟩)

end Sys2Proof
end

section
/-! PROOFS. Release and purge of a held request (spec/44_indirect_queue.md R222 to R225). -/

namespace Sys2Proof

open Machine

/-- The entry at `find(h)` is the oldest of its handle, and removing it is removing that position (R220). -/
theorem oldest_of_findHandle {q : List Entry} {h : Byte} {i : Nat} (hi : findHandle q h = some i) :
    ∃ e, oldest q h = some e ∧ q[i]? = some e ∧ withoutOldest q h = q.eraseIdx i ∧ e.handle = h := by
  cases he : oldest q h with
  | none => cases hi.symm.trans (oldest_eq_none.mp he)
  | some e =>
    obtain ⟨j, hj, hget, herase, hhandle⟩ := oldest_eq_some he
    obtain rfl : j = i := Option.some.inj (hj.symm.trans hi)
    exact ⟨e, rfl, hget, herase, hhandle⟩

theorem indRelease_of_oldest_none {c : Params} {s : State} {h : Byte} (hon : s.life = .on)
    (hnone : oldest s.queue h = none) : indRelease c h s = s.respond 1#32 := by
  simp only [indRelease, hon, hnone, if_true]

theorem indRelease_of_busy {c : Params} {s : State} {h : Byte} {e : Entry} (hon : s.life = .on)
    (hbusy : s.eng.st ≠ .idle) (he : oldest s.queue h = some e) : indRelease c h s = s.respond 2#32 := by
  simp only [indRelease, hon, he, if_true, if_neg hbusy]

/-- A release by an idle engine starts the oldest entry's request without that entry (R222). -/
theorem indRelease_of_idle {c : Params} {s : State} {h : Byte} {e : Entry} (hon : s.life = .on) (hidle : s.eng.st = .idle)
    (he : oldest s.queue h = some e) :
    indRelease c h s =
      (startRequest c e.handle e.len e.ackReq (s.setQueue (withoutOldest s.queue h))).respond 0#32 := by
  simp only [indRelease, hon, he, hidle, if_true]

/-- A direct request accepted by an idle engine is StartRequest (R170). -/
theorem dataReq_of_idle {c : Params} {s : State} {h l : Byte} {a : Bool} (hon : s.life = .on) (hidle : s.eng.st = .idle)
    (hlen : l.toNat ≤ c.maxFrameLen.toNat) : dataReq c h l false a s = (startRequest c h l a s).done := by
  rw [dataReq, if_pos hon, if_neg (Nat.not_lt.mpr hlen), if_neg Bool.false_ne_true, if_pos hidle]

/-- Settles O45: a served release and a direct request are the same StartRequest, of the same entry. -/
theorem releaseOfAHeldRequest : Obligations.ReleaseOfAHeldRequest := by
  intro s h hon
  refine ⟨fun hnone => ?_, fun i hi hbusy => ?_, fun i e hi hget hidle => ?_⟩
  · have hold : oldest s.queue h = none := oldest_eq_none.mpr hnone
    exact congrArg Host.Outcome.next (indRelease_of_oldest_none hon hold)
  · obtain ⟨e, hold, -⟩ := oldest_of_findHandle hi
    exact congrArg Host.Outcome.next (indRelease_of_busy hon hbusy hold)
  · obtain ⟨e', hold, hget', herase, hhandle⟩ := oldest_of_findHandle hi
    obtain rfl : e' = e := Option.some.inj (hget'.symm.trans hget)
    have hrelease := indRelease_of_idle (c := Config.platform) hon hidle hold
    rw [hhandle, herase] at hrelease
    have hframe := startRequest_frame Config.platform h e'.len e'.ackReq (s.setQueue (s.queue.eraseIdx i))
    refine ⟨hhandle, fun hlen => congrArg Host.Outcome.next ?_, _, congrArg Host.Outcome.next hrelease, hframe.queue, ?_⟩
    · rw [hrelease, dataReq_of_idle (by exact hon) (by exact hidle) (by exact hlen)]
      rfl
    · exact congrArg (· ++ [(⟨true, 0, []⟩ : Response)]) hframe.responses

/-- Settles O46: the release is the StartRequest of `startRequest_of_disableCCA` in a cleared engine. -/
theorem releaseTransmitsWithCcaDisabled : Obligations.ReleaseTransmitsWithCcaDisabled := by
  intro s h i e hon hidle hi hget hcca hwait
  refine congrArg Host.Outcome.next ?_
  obtain ⟨e', hold, hget', herase, hhandle⟩ := oldest_of_findHandle hi
  obtain rfl : e' = e := Option.some.inj (hget'.symm.trans hget)
  rw [indRelease_of_idle hon (by rw [hidle]; rfl) hold, hhandle, herase,
    startRequest_of_disableCCA (by exact hwait) (by exact hcca)]
  simp only [State.setQueue, hidle]
  rfl

theorem purge_of_oldest_some {s : State} {h : Byte} {e : Entry} (hon : s.life = .on) (he : oldest s.queue h = some e) :
    purge h s = ((s.setQueue (withoutOldest s.queue h)).emit (.confPurge h .success)).done := by
  simp only [purge, hon, he, if_true]

/-- Settles O47: the handle is held, so PURGE takes its second branch. -/
theorem purgeRemovesTheOldestEntry : Obligations.PurgeRemovesTheOldestEntry := by
  intro s h i hon hi
  obtain ⟨e, hold, -, herase, -⟩ := oldest_of_findHandle hi
  have hpurge := purge_of_oldest_some hon hold
  rw [herase] at hpurge
  exact congrArg Host.Outcome.next hpurge

end Sys2Proof
end

section
/-! PROOFS. RX_ENABLE and START_RX (spec/45_rx_scheduler.md R252, R254): the whole next state. -/

namespace Sys2Proof

open Machine

/-- Settles O49: the window of `moveWindow_eq`, and the receiver driven exactly when `windowActive` changed. -/
theorem rxEnableMovesTheWindow : Obligations.RxEnableMovesTheWindow := by
  intro s stop start dur hon
  refine congrArg Host.Outcome.next ?_
  obtain ⟨hoff, -⟩ | ⟨-, hsame, e⟩ | ⟨-, hchanged, e⟩ := rxEnable_cases stop start dur s
  · exact absurd hon hoff
  · rw [moveWindow_eq] at hsame e
    rw [e]
    simp only [State.setWindow_windowActive] at hsame
    simp only [if_pos hsame, List.append_nil]
    rfl
  · rw [moveWindow_eq] at hchanged e
    rw [e]
    simp only [State.setWindow_windowActive] at hchanged
    simp only [if_neg hchanged]
    rfl

/-- Settles O51: START_RX applies the decision unconditionally. -/
theorem startRxDrivesTheDecision : Obligations.StartRxDrivesTheDecision :=
  fun _ hon => congrArg Host.Outcome.next (if_pos hon)

end Sys2Proof
end

section
/-! PROOFS. The effect of an engine procedure: what it writes depends only on the engine, `dsn` and the oracle's counter, and
what it leaves alone may be anything (spec/10_state.md R27, spec/45_rx_scheduler.md R259). -/

namespace Sys2Proof

open Machine

/-- What an engine procedure writes: the engine, `dsn`, the oracle's counter, and the events it emits. -/
structure EngineEffect where
  eng : Engine
  dsn : Byte
  draws : Nat
  events : List Event

/-- The effect applied to a state. -/
def EngineEffect.on (d : EngineEffect) (s : State) : State :=
  { s with eng := d.eng, pib := { s.pib with dsn := d.dsn }, draws := d.draws, events := s.events ++ d.events }

/-- Outside the engine's frame there is nothing else to write. -/
theorem eq_of_engineFrame {s t : State} (h : EngineFrame s t) :
    t = { s with eng := t.eng, pib := { s.pib with dsn := t.pib.dsn }, draws := t.draws, events := t.events } := by
  obtain ⟨hlife, hpib, hqueue, hactive, htimer, hrx, hport, hdata, hresp⟩ := h
  cases t
  exact State.mk.injEq .. ▸ ⟨hlife, hpib, rfl, hqueue, hactive, htimer, hrx, hport, hdata, rfl, hresp, rfl⟩

/-- A procedure that keeps the engine's frame, run on two states alike for it, has one effect on both. -/
theorem exists_engineEffect {s s' t t' : State} (h : EngineFrame s t) (h' : EngineFrame s' t')
    (hsame : EngineSame s s' t t') : ∃ d : EngineEffect, t = d.on s ∧ t' = d.on s' := by
  obtain ⟨⟨heng, hdsn, hdraws⟩, es, hes, hes'⟩ := hsame
  refine ⟨⟨t.eng, t.pib.dsn, t.draws, es⟩, ?_, ?_⟩
  · rw [EngineEffect.on, ← hes]
    exact eq_of_engineFrame h
  · rw [EngineEffect.on, ← hes', heng, hdsn, hdraws]
    exact eq_of_engineFrame h'

/-- A change of state outside the engine: no engine procedure reads what it writes, or writes it. -/
structure OutsideEngine (W : State → State) : Prop where
  alike : ∀ s, EngineAlike s (W s)
  on : ∀ (d : EngineEffect) s, W (d.on s) = d.on (W s)

/-- Such a change may be made before an engine procedure or after it. -/
theorem OutsideEngine.comm {W f : State → State} (hW : OutsideEngine W) (hframe : ∀ s, EngineFrame s (f s))
    (hsame : ∀ {s s'}, EngineAlike s s' → EngineSame s s' (f s) (f s')) (s : State) : f (W s) = W (f s) := by
  obtain ⟨d, h, h'⟩ := exists_engineEffect (hframe s) (hframe (W s)) (hsame (hW.alike s))
  rw [h, h', hW.on]

theorem OutsideEngine.engineTick {W : State → State} (hW : OutsideEngine W) (c : Params) (s : State) :
    engineTick c (W s) = W (engineTick c s) := hW.comm (engineTick_frame c) (engineTick_same c) s

theorem outsideEngine_answer (r : Response) : OutsideEngine (·.answer r) :=
  ⟨fun _ => ⟨rfl, rfl, rfl⟩, fun _ _ => rfl⟩

end Sys2Proof
end

section
/-! PROOFS. TICK (spec/43_csma_engine.md R186 to R188): ticks that expire nothing count every running timer down, and the
tick in which one timer expires follows such ticks. -/

namespace Sys2Proof

open Machine

/-! ## Counting down -/

/-- The engine's running timers `n` lower. -/
def countEngine (n : Nat) (e : Engine) : Engine :=
  { e with
    totalTimer := if e.st = .idle then e.totalTimer else e.totalTimer - BitVec.ofNat 16 n
    backoffTimer := if e.st = .backoff then e.backoffTimer - n else e.backoffTimer
    ackTimer := if e.st = .ackWait then e.ackTimer - BitVec.ofNat 16 n else e.ackTimer }

/-- The held entries' persistence times and an open window's timer `n` lower. -/
def countRest (n : Nat) (s : State) : State :=
  { s with
    queue := s.queue.map (fun e => { e with persist := e.persist - BitVec.ofNat 16 n })
    windowTimer := if s.windowActive then s.windowTimer - BitVec.ofNat 24 n else s.windowTimer }

/-- No timer of the engine expires within `n` ticks. -/
structure EngineRuns (n : Nat) (e : Engine) : Prop where
  total : e.st ≠ .idle → n < e.totalTimer.toNat
  backoff : e.st = .backoff → n < e.backoffTimer
  ack : e.st = .ackWait → n < e.ackTimer.toNat

/-- No held entry and no window expires within `n` ticks. -/
structure RestRuns (n : Nat) (s : State) : Prop where
  entries : ∀ e ∈ s.queue, n < e.persist.toNat
  window : s.windowActive = true → n < s.windowTimer.toNat

theorem sub_ofNat_sub_ofNat {w : Nat} (x : BitVec w) (m n : Nat) :
    x - BitVec.ofNat w m - BitVec.ofNat w n = x - BitVec.ofNat w (m + n) := by
  rw [BitVec.ofNat_add, sub_sub]

theorem toNat_sub_ofNat {w : Nat} {x : BitVec w} {n : Nat} (h : n ≤ x.toNat) :
    (x - BitVec.ofNat w n).toNat = x.toNat - n := by
  have hn : (BitVec.ofNat w n).toNat = n := by
    rw [BitVec.toNat_ofNat]
    exact Nat.mod_eq_of_lt (h.trans_lt x.isLt)
  have hle : BitVec.ofNat w n ≤ x := BitVec.le_def.mpr (hn.symm ▸ h)
  rw [BitVec.toNat_sub_of_le hle, hn]

theorem countEngine_zero (e : Engine) : countEngine 0 e = e := by
  simp only [countEngine, BitVec.sub_zero, Nat.sub_zero, ite_self]

theorem countEngine_add (m n : Nat) (e : Engine) : countEngine n (countEngine m e) = countEngine (m + n) e := by
  cases hst : e.st <;> simp [countEngine, hst, sub_ofNat_sub_ofNat, Nat.sub_sub]

theorem countRest_zero (s : State) : countRest 0 s = s := by
  simp [countRest]

theorem countRest_add (m n : Nat) (s : State) : countRest n (countRest m s) = countRest (m + n) s := by
  cases hopen : s.windowActive <;> simp [countRest, hopen, sub_ofNat_sub_ofNat]

theorem engineRuns_of_le {m n : Nat} {e : Engine} (h : EngineRuns n e) (hmn : m ≤ n) : EngineRuns m e :=
  ⟨fun k => hmn.trans_lt (h.total k), fun k => hmn.trans_lt (h.backoff k), fun k => hmn.trans_lt (h.ack k)⟩

theorem restRuns_of_le {m n : Nat} {s : State} (h : RestRuns n s) (hmn : m ≤ n) : RestRuns m s :=
  ⟨fun e he => hmn.trans_lt (h.entries e he), fun k => hmn.trans_lt (h.window k)⟩

theorem engineRuns_countEngine {m n : Nat} {e : Engine} (h : EngineRuns (m + n) e) : EngineRuns n (countEngine m e) := by
  refine ⟨fun hst => ?_, fun hst => ?_, fun hst => ?_⟩
  · have hbusy : e.st ≠ .idle := hst
    have htotal := h.total hbusy
    simp only [countEngine, if_neg hbusy]
    rw [toNat_sub_ofNat (by omega)]
    omega
  · have hst' : e.st = .backoff := hst
    have hbackoff := h.backoff hst'
    simp only [countEngine, if_pos hst']
    omega
  · have hst' : e.st = .ackWait := hst
    have hack := h.ack hst'
    simp only [countEngine, if_pos hst']
    rw [toNat_sub_ofNat (by omega)]
    omega

theorem restRuns_countRest {m n : Nat} {s : State} (h : RestRuns (m + n) s) : RestRuns n (countRest m s) := by
  refine ⟨fun e he => ?_, fun hopen => ?_⟩
  · obtain ⟨e₀, he₀, rfl⟩ := List.mem_map.mp he
    have hpersist := h.entries e₀ he₀
    show n < (e₀.persist - BitVec.ofNat 16 m).toNat
    rw [toNat_sub_ofNat (by omega)]
    omega
  · have hopen' : s.windowActive = true := hopen
    have hwindow := h.window hopen'
    simp only [countRest, if_pos hopen']
    rw [toNat_sub_ofNat (by omega)]
    omega

/-! ## One tick that expires nothing -/

theorem engineTick_of_runs {c : Params} {s : State} (h : EngineRuns 1 s.eng) :
    engineTick c s = s.setEng (countEngine 1 s.eng) := by
  obtain ⟨hidle, e⟩ | ⟨hbusy, hone, -⟩ | ⟨hbusy, -, e⟩ := engineTick_cases c s
  · rw [e, countEngine, if_pos hidle, if_neg (by rw [hidle]; decide), if_neg (by rw [hidle]; decide)]
    rfl
  · have htotal := h.total hbusy
    rw [hone] at htotal
    exact absurd htotal (Nat.lt_irrefl 1)
  · rw [e]
    obtain ⟨hst, hlow, -⟩ | ⟨hst, -, e⟩ | ⟨hst, hone, -⟩ | ⟨hst, -, e⟩ | ⟨hb, ha, e⟩ := stateTick_cases c (totalTick s)
    · exact absurd (h.backoff hst) (Nat.not_lt.mpr hlow)
    · have hst' : s.eng.st = .backoff := hst
      rw [e]
      simp [totalTick, countEngine, State.setEng, hst']
    · have hack := h.ack hst
      have hone' : s.eng.ackTimer = 1 := hone
      rw [hone'] at hack
      exact absurd hack (Nat.lt_irrefl 1)
    · have hst' : s.eng.st = .ackWait := hst
      rw [e]
      simp [totalTick, countEngine, State.setEng, hst']
    · have hb' : s.eng.st ≠ .backoff := hb
      have ha' : s.eng.st ≠ .ackWait := ha
      rw [e]
      simp [totalTick, countEngine, State.setEng, hbusy, hb', ha']

/-- With no expiry the queue's tick ages every entry (R226). -/
theorem queueTick_of_runs {s : State} (h : ∀ e ∈ s.queue, 1 < e.persist.toNat) :
    queueTick s = s.setQueue (s.queue.map Entry.aged) := by
  have hlive : ∀ e ∈ s.queue.map Entry.aged, e.expired = false := by
    intro e he
    obtain ⟨e₀, he₀, rfl⟩ := List.mem_map.mp he
    have hpersist := h e₀ he₀
    rw [aged_expired (by omega)]
    exact decide_eq_false (by omega)
  have hnone : (s.queue.map Entry.aged).filter Entry.expired = [] :=
    List.filter_eq_nil_iff.mpr fun e he => by rw [hlive e he]; decide
  have hall : (s.queue.map Entry.aged).filter (fun e => !e.expired) = s.queue.map Entry.aged :=
    List.filter_eq_self.mpr fun e he => by rw [hlive e he]; rfl
  rw [queueTick, hnone, hall]
  simp [State.emitAll]

theorem windowTick_of_runs {s : State} (h : s.windowActive = true → 1 < s.windowTimer.toNat) :
    windowTick s = { s with windowTimer := if s.windowActive then s.windowTimer - 1 else s.windowTimer } := by
  obtain ⟨hclosed, e⟩ | ⟨hopen, hone, -⟩ | ⟨hopen, -, e⟩ := windowTick_cases s
  · rw [e, if_neg (by rw [hclosed]; decide)]
  · have hwindow := h hopen
    rw [hone] at hwindow
    exact absurd hwindow (Nat.lt_irrefl 1)
  · rw [e, if_pos hopen, State.setWindow, ← hopen]

theorem restTick_of_runs {s : State} (h : RestRuns 1 s) : windowTick (queueTick s) = countRest 1 s := by
  rw [queueTick_of_runs h.entries, windowTick_of_runs (by exact h.window)]
  rfl

/-! ## Ticks that expire nothing, and the first expiry of the engine -/

theorem ticks_of_runs {c : Params} {n : Nat} {s : State} (he : EngineRuns n s.eng) (hr : RestRuns n s) :
    ticks c n s = countRest n (s.setEng (countEngine n s.eng)) := by
  induction n generalizing s with
  | zero => rw [ticks, countEngine_zero]; exact (countRest_zero s).symm
  | succ n ih =>
    rw [Nat.add_comm] at he hr
    have hengine : engineTick c s = s.setEng (countEngine 1 s.eng) := engineTick_of_runs (engineRuns_of_le he (by omega))
    have hone : oneTick c s = countRest 1 (s.setEng (countEngine 1 s.eng)) := by
      have hrest : RestRuns 1 (s.setEng (countEngine 1 s.eng)) :=
        ⟨(restRuns_of_le hr (by omega)).entries, (restRuns_of_le hr (by omega)).window⟩
      rw [oneTick, hengine, restTick_of_runs hrest]
    have hrest : RestRuns n (oneTick c s) := by
      rw [hone]
      exact restRuns_countRest ⟨hr.entries, hr.window⟩
    have heng : EngineRuns n (oneTick c s).eng := by
      rw [hone]
      exact engineRuns_countEngine he
    have hcount : countEngine n (countEngine 1 s.eng) = countEngine (n + 1) s.eng := by
      rw [countEngine_add, Nat.add_comm]
    calc ticks c (n + 1) s = countRest n ((oneTick c s).setEng (countEngine n (oneTick c s).eng)) := ih heng hrest
      _ = countRest n (countRest 1 (s.setEng (countEngine n (countEngine 1 s.eng)))) := by rw [hone]; rfl
      _ = countRest (n + 1) (s.setEng (countEngine (n + 1) s.eng)) := by rw [countRest_add, hcount, Nat.add_comm]

theorem outsideEngine_countRest (n : Nat) : OutsideEngine (countRest n) :=
  ⟨fun _ => ⟨rfl, rfl, rfl⟩, fun _ _ => rfl⟩

/-- When nothing but the engine can expire in the last of `k + 1` ticks, that tick is the engine's, counted down. -/
theorem ticks_succ_of_rest_runs {c : Params} {k : Nat} {s : State} (he : EngineRuns k s.eng) (hr : RestRuns (k + 1) s) :
    ticks c (k + 1) s = countRest (k + 1) (engineTick c (s.setEng (countEngine k s.eng))) := by
  have hbefore : ticks c k s = countRest k (s.setEng (countEngine k s.eng)) :=
    ticks_of_runs he (restRuns_of_le hr (Nat.le_succ k))
  have hframe := engineTick_frame c (s.setEng (countEngine k s.eng))
  have hafter : RestRuns (k + 1) (engineTick c (s.setEng (countEngine k s.eng))) :=
    ⟨by rw [hframe.queue]; exact hr.entries, by rw [hframe.windowActive, hframe.windowTimer]; exact hr.window⟩
  rw [ticks_add, hbefore]
  show windowTick (queueTick (engineTick c (countRest k _))) = _
  rw [(outsideEngine_countRest k).engineTick, restTick_of_runs (restRuns_countRest hafter), countRest_add]

theorem exec_tick_of_on {s : State} (hon : s.life = .on) (n : Symbols) :
    exec (.tick n) s = .next (ticks Config.platform n.toNat s).done :=
  congrArg Host.Outcome.next (if_pos hon)

/-! ## R186 to R188 -/

/-- Settles O37: it is `ticks_of_runs`. -/
theorem quietTicksOnlyCountDown : Obligations.QuietTicksOnlyCountDown := by
  intro s n hon htotal hbackoff hack hqueue hwindow
  rw [exec_tick_of_on hon, ticks_of_runs ⟨htotal, hbackoff, hack⟩ ⟨hqueue, hwindow⟩]
  simp only [countRest, countEngine, BitVec.ofNat_toNat, BitVec.setWidth_eq]
  rfl

/-- A run of ticks does not read the responses. -/
theorem ticks_answer (c : Params) (n : Nat) (s : State) (r : Response) :
    ticks c n (s.answer r) = (ticks c n s).answer r := by
  have hwindow : ∀ s : State, windowTick (s.answer r) = (windowTick s).answer r := by
    intro s
    unfold windowTick
    rw [apply_ite (fun u : State => u.answer r), apply_ite (fun u : State => u.answer r)]
    rfl
  have hone : ∀ s : State, oneTick c (s.answer r) = (oneTick c s).answer r := by
    intro s
    rw [oneTick, (outsideEngine_answer r).engineTick]
    exact hwindow (queueTick (engineTick c s))
  induction n generalizing s with
  | zero => rfl
  | succ n ih =>
    rw [ticks, hone]
    exact ih _

/-- Settles O38: a run of ticks splits anywhere, and the response in between is not read. -/
theorem ticksCompose : Obligations.TicksCompose := by
  refine ⟨fun s t u v a b hon hsum ht hu hv => ?_, fun s hon => exec_tick_of_on hon 0⟩
  obtain rfl := Host.Outcome.next.inj ((exec_tick_of_on hon a).symm.trans ht)
  have hon' : (ticks Config.platform a.toNat s).done.life = .on := (ticks_life _ _ s).trans hon
  obtain rfl := Host.Outcome.next.inj ((exec_tick_of_on hon' b).symm.trans hu)
  obtain rfl := Host.Outcome.next.inj ((exec_tick_of_on hon (a + b)).symm.trans hv)
  have hab : (a + b).toNat = a.toNat + b.toNat := BitVec.toNat_add_of_lt hsum
  have hsplit : ticks Config.platform b.toNat (ticks Config.platform a.toNat s).done =
      (ticks Config.platform (a + b).toNat s).done := by
    rw [hab, ticks_add]
    exact ticks_answer _ _ _ _
  rw [hsplit]
  rfl

theorem issueCca_eq (s : State) :
    issueCca s = { s with
      eng := { s.eng with backoffTimer := 0, st := .ccaWait }, events := s.events ++ [.radioCca] } := rfl

/-- Settles O39: the last tick is the engine's, whose backoff timer stands at 1. -/
theorem backoffExpiryAsksForTheCca : Obligations.BackoffExpiryAsksForTheCca := by
  intro s n hon hst hpos hn htotal hqueue hwindow
  obtain ⟨k, hk⟩ : ∃ k, n.toNat = k + 1 := ⟨n.toNat - 1, by omega⟩
  have hruns : EngineRuns k s.eng :=
    ⟨fun _ => by omega, fun _ => by omega, fun h => nomatch hst.symm.trans h⟩
  have hbusy : s.eng.st ≠ .idle := by rw [hst]; decide
  have htick : engineTick Config.platform (s.setEng (countEngine k s.eng)) = { s with
      eng := { s.eng with st := .ccaWait, backoffTimer := 0, totalTimer := s.eng.totalTimer - BitVec.ofNat 16 (k + 1) }
      events := s.events ++ [.radioCca] } := by
    have hleft : s.eng.totalTimer - BitVec.ofNat 16 k - 1 ≠ 0 := by
      intro hzero
      have hlast := sub_ofNat_sub_ofNat s.eng.totalTimer k 1
      have hcount := toNat_sub_ofNat (x := s.eng.totalTimer) (n := k + 1) (by omega)
      rw [← hlast, show BitVec.ofNat 16 1 = 1 from rfl, hzero] at hcount
      have : (0 : BitVec 16).toNat = 0 := rfl
      omega
    have hone : s.eng.backoffTimer - k - 1 = 0 := by omega
    simp only [engineTick, stateTick, totalTick, countEngine, State.setEng, hst, hleft, hone, if_true, if_false,
      reduceCtorEq, issueCca_eq, ← sub_ofNat_sub_ofNat]
    rfl
  rw [exec_tick_of_on hon, hk, ticks_succ_of_rest_runs hruns ⟨hk ▸ hqueue, hk ▸ hwindow⟩, htick, ← hk]
  simp only [countRest, BitVec.ofNat_toNat, BitVec.setWidth_eq]
  rfl

end Sys2Proof
end

section
/-! PROOFS. Expiries (spec/43_csma_engine.md R187, R195, spec/44_indirect_queue.md R226, spec/45_rx_scheduler.md R255,
spec/60_exceptions.md R289): the ACK timer's, everything's in one tick, the total timer's, the held entries' and the
window's. -/

namespace Sys2Proof

open Machine

/-! ## The ACK timer (R182, R187) -/

/-- The engine's tick at the ACK timer's last symbol, `k` symbols after `s`. -/
theorem engineTick_of_last_ack {c : Params} {s : State} {k : Nat} (hst : s.eng.st = .ackWait)
    (hack : s.eng.ackTimer.toNat = k + 1) (htotal : k + 1 < s.eng.totalTimer.toNat) :
    engineTick c (s.setEng (countEngine k s.eng)) = ackFail c
      { s with eng := { s.eng with ackTimer := 0, totalTimer := s.eng.totalTimer - BitVec.ofNat 16 (k + 1) } } := by
  have hbusy : s.eng.st ≠ .idle := by rw [hst]; decide
  have hcount : countEngine k s.eng = { s.eng with
      totalTimer := s.eng.totalTimer - BitVec.ofNat 16 k, ackTimer := s.eng.ackTimer - BitVec.ofNat 16 k } := by
    rw [countEngine, if_neg hbusy, if_neg (by rw [hst]; decide), if_pos hst]
  have htotalLeft : s.eng.totalTimer - BitVec.ofNat 16 k ≠ 1 := by
    intro hone
    have hleft := toNat_sub_ofNat (x := s.eng.totalTimer) (n := k) (by omega)
    rw [hone] at hleft
    have : (1 : BitVec 16).toNat = 1 := rfl
    omega
  have hackLeft : s.eng.ackTimer - BitVec.ofNat 16 k = 1 := by
    apply BitVec.eq_of_toNat_eq
    rw [toNat_sub_ofNat (by omega), hack, Nat.add_sub_cancel_left]
    rfl
  rw [hcount]
  obtain ⟨hidle, -⟩ | ⟨-, hone, -⟩ | ⟨-, -, e⟩ := engineTick_cases c (s.setEng { s.eng with
    totalTimer := s.eng.totalTimer - BitVec.ofNat 16 k, ackTimer := s.eng.ackTimer - BitVec.ofNat 16 k })
  · exact absurd hidle hbusy
  · exact absurd hone htotalLeft
  · rw [e]
    obtain ⟨h, -, -⟩ | ⟨h, -, -⟩ | ⟨-, -, e⟩ | ⟨-, h, -⟩ | ⟨-, h, -⟩ := stateTick_cases c (totalTick (s.setEng { s.eng with
      totalTimer := s.eng.totalTimer - BitVec.ofNat 16 k, ackTimer := s.eng.ackTimer - BitVec.ofNat 16 k }))
    · cases hst.symm.trans h
    · cases hst.symm.trans h
    · rw [e, ← sub_ofNat_sub_ofNat]
      rfl
    · exact absurd hackLeft h
    · exact absurd hst h

/-- Settles O40: the last tick is the engine's, which is AckFail of a numbered request. -/
theorem ackExpiryFailsTheAttempt : Obligations.AckExpiryFailsTheAttempt := by
  intro s n hon hst hpos hn htotal hqueue hwindow hnumbered
  obtain ⟨k, hk⟩ : ∃ k, n.toNat = k + 1 := ⟨n.toNat - 1, by omega⟩
  have hruns : EngineRuns k s.eng :=
    ⟨fun _ => by omega, fun h => (nomatch hst.symm.trans h), fun _ => by omega⟩
  rw [exec_tick_of_on hon, hk, ticks_succ_of_rest_runs hruns ⟨hk ▸ hqueue, hk ▸ hwindow⟩,
    engineTick_of_last_ack hst (by omega) (by omega), ackFail_of_numbered (by exact hnumbered), ← hk]
  simp only [BitVec.ofNat_toNat]
  have hdone : ∀ t : State, (countRest n.toNat t).done = { t with
      queue := t.queue.map (fun e => { e with persist := e.persist - n.setWidth 16 })
      windowTimer := if t.windowActive then t.windowTimer - n else t.windowTimer
      responses := t.responses ++ [⟨true, 0, []⟩] } := by
    intro t
    simp only [countRest, BitVec.ofNat_toNat, BitVec.setWidth_eq]
    rfl
  rw [hdone]
  split_ifs <;> rfl

/-! ## Everything in one tick (R187, R289) -/

/-- The queue's tick when every entry is at its last symbol: all confirmed, oldest first, and none held. -/
theorem queueTick_of_all_expire {s : State} (h : ∀ e ∈ s.queue, e.persist = 1) :
    queueTick s = { s with
      queue := [], events := s.events ++ s.queue.map (fun e => .confData e.handle .transactionExpired) } := by
  have hexp : ∀ e ∈ s.queue.map Entry.aged, e.expired = true := by
    intro e he
    obtain ⟨e₀, he₀, rfl⟩ := List.mem_map.mp he
    rw [Entry.aged, h e₀ he₀]
    rfl
  have hall : (s.queue.map Entry.aged).filter Entry.expired = s.queue.map Entry.aged := List.filter_eq_self.mpr hexp
  have hnone : (s.queue.map Entry.aged).filter (fun e => !e.expired) = [] :=
    List.filter_eq_nil_iff.mpr fun e he => by rw [hexp e he]; decide
  rw [queueTick, hall, hnone, List.map_map]
  rfl

/-- Settles O41: the three parts of one tick in turn; with the window closed the decision is `rxOnWhenIdle`. -/
theorem expiriesOfOneTickInOrder : Obligations.ExpiriesOfOneTickInOrder := by
  intro s hon hbusy htotal hqueue hopen hwindow
  have hengine : engineTick Config.platform s =
      { s with eng := Engine.idle, events := s.events ++ [.confData s.eng.handle .transactionExpired] } := by
    obtain ⟨hidle, -⟩ | ⟨-, -, e⟩ | ⟨-, hne, -⟩ := engineTick_cases Config.platform s
    · exact absurd hidle hbusy
    · exact e
    · exact absurd htotal hne
  have hclose : ∀ t : State, t.windowActive = true → t.windowTimer = 1 →
      windowTick t = applyRx (t.setWindow false 0) := by
    intro t hactive htimer
    obtain ⟨hclosed, -⟩ | ⟨-, -, e⟩ | ⟨-, hne, -⟩ := windowTick_cases t
    · cases hclosed.symm.trans hactive
    · exact e
    · exact absurd htimer hne
  have hrx : ∀ t : State, rxOn (t.setWindow false 0) = t.pib.rxOnWhenIdle := fun _ => Bool.or_false _
  rw [exec_tick_of_on hon]
  show Host.Outcome.next (windowTick (queueTick (engineTick Config.platform s))).done = _
  rw [hengine, queueTick_of_all_expire (by exact hqueue), hclose _ (by exact hopen) (by exact hwindow), applyRx, hrx]
  rfl

/-! ## The total timer (R195) -/

/-- The request is over, or it is the same one with the same time left. -/
def KeepsTotal (s t : State) : Prop :=
  t.eng = Engine.idle ∨
    (t.eng.st ≠ .idle ∧ t.eng.handle = s.eng.handle ∧ t.eng.totalTimer = s.eng.totalTimer)

theorem transmit_keepsTotal (s : State) : KeepsTotal s (transmit s) := by
  unfold KeepsTotal
  rw [transmit_eng]
  exact .inr ⟨nofun, rfl, rfl⟩

theorem issueCca_keepsTotal (s : State) : KeepsTotal s (issueCca s) := .inr ⟨nofun, rfl, rfl⟩

theorem startBackoff_keepsTotal (c : Params) (s : State) : KeepsTotal s (startBackoff c s) := by
  obtain ⟨r, -, -, ⟨-, e⟩ | ⟨-, e⟩⟩ := startBackoff_cases c s <;> rw [e]
  · exact issueCca_keepsTotal (s.setDraws (s.draws + 1))
  · exact .inr ⟨nofun, rfl, rfl⟩

theorem startCycle_keepsTotal (c : Params) (s : State) : KeepsTotal s (startCycle c s) := by
  obtain ⟨-, e⟩ | ⟨-, -, e⟩ | ⟨-, -, e⟩ := startCycle_cases c s <;> rw [e]
  · exact transmit_keepsTotal s
  · exact .inl rfl
  · exact startBackoff_keepsTotal c (cycleStart s)

theorem ackFail_keepsTotal (c : Params) (s : State) : KeepsTotal s (ackFail c s) := by
  obtain ⟨-, e⟩ | ⟨-, e⟩ := ackFail_cases c s <;> rw [e]
  · exact startCycle_keepsTotal c (s.setEng _)
  · exact .inl rfl

theorem stateTick_keepsTotal (c : Params) (s : State) (hbusy : s.eng.st ≠ .idle) : KeepsTotal s (stateTick c s) := by
  obtain ⟨-, -, e⟩ | ⟨-, -, e⟩ | ⟨-, -, e⟩ | ⟨-, -, e⟩ | ⟨-, -, e⟩ := stateTick_cases c s <;> rw [e]
  · exact issueCca_keepsTotal (s.setEng _)
  · exact .inr ⟨hbusy, rfl, rfl⟩
  · exact ackFail_keepsTotal c (s.setEng _)
  · exact .inr ⟨hbusy, rfl, rfl⟩
  · exact .inr ⟨hbusy, rfl, rfl⟩

/-- The request of `s` has ended with its confirm. -/
def Ended (s t : State) : Prop :=
  t.eng = Engine.idle ∧ ∃ es, t.events = s.events ++ es ∧ 1 ≤ confirmsOf s.eng.handle es

/-- The request of `s` is in the engine, `k` symbols later. -/
def InEngineAfter (k : Nat) (s t : State) : Prop :=
  t.eng.st ≠ .idle ∧ t.eng.handle = s.eng.handle ∧ t.eng.totalTimer.toNat + k = s.eng.totalTimer.toNat ∧
    ∃ es, t.events = s.events ++ es

/-- One symbol of a request with time left: it ends with its confirm, or has one symbol less. -/
theorem engineTick_ended_or_counts (c : Params) {s : State} (hbusy : s.eng.st ≠ .idle)
    (htime : 1 ≤ s.eng.totalTimer.toNat) : Ended s (engineTick c s) ∨ InEngineAfter 1 s (engineTick c s) := by
  obtain ⟨es, hes, -, hsettle⟩ := engineTick_settles c s hbusy
  have hended : (engineTick c s).eng = Engine.idle → Ended s (engineTick c s) := by
    intro hidle
    refine ⟨hidle, es, hes, ?_⟩
    have hone := hsettle s.eng.handle
    rw [hidle, engineLive_of_idle rfl, if_pos rfl] at hone
    exact hone.symm.le
  obtain ⟨hidle, -⟩ | ⟨-, -, e⟩ | ⟨-, hne, e⟩ := engineTick_cases c s
  · exact absurd hidle hbusy
  · exact .inl (hended (by rw [e]; rfl))
  · obtain hidle | ⟨hbusy', hhandle, htotal⟩ := stateTick_keepsTotal c (totalTick s) hbusy
    · exact .inl (hended (by rw [e]; exact hidle))
    · refine .inr ⟨by rw [e]; exact hbusy', by rw [e]; exact hhandle, ?_, es, hes⟩
      have hcount : (engineTick c s).eng.totalTimer = s.eng.totalTimer - 1 := by rw [e]; exact htotal
      rw [hcount]
      exact (congrArg (· + 1) (toNat_sub_ofNat htime)).trans (Nat.sub_add_cancel htime)

/-- Once it has ended, a request stays ended: ticks of an idle engine only append events. -/
theorem oneTick_ended (c : Params) {s t : State} (h : Ended s t) : Ended s (oneTick c t) := by
  obtain ⟨hidle, es, hes, hone⟩ := h
  obtain ⟨fs, hfs⟩ := (oneTick_appends c t).events
  refine ⟨?_, es ++ fs, by rw [hfs, hes, List.append_assoc], ?_⟩
  · rw [oneTick_eng, engineTick, if_pos (by rw [hidle]; rfl), hidle]
  · rw [confirmsOf_append]
    exact Nat.le_add_right_of_le hone

theorem ticks_ended_or_counts (c : Params) {s : State} (hbusy : s.eng.st ≠ .idle)
    (htime : 1 ≤ s.eng.totalTimer.toNat) (n : Nat) :
    Ended s (ticks c n s) ∨ (n < s.eng.totalTimer.toNat ∧ InEngineAfter n s (ticks c n s)) := by
  induction n with
  | zero => exact .inr ⟨htime, hbusy, rfl, rfl, [], (List.append_nil _).symm⟩
  | succ n ih =>
    rw [ticks_add c n 1]
    show Ended s (oneTick c _) ∨ _ ∧ InEngineAfter (n + 1) s (oneTick c _)
    generalize ticks c n s = t at ih
    obtain hended | ⟨hlt, hbusy', hhandle, htotal, es, hes⟩ := ih
    · exact .inl (oneTick_ended c hended)
    · obtain ⟨fs, hfs⟩ := oneTick_events c t
      unfold Ended InEngineAfter
      rw [oneTick_eng, hfs]
      obtain ⟨hidle, gs, hgs, hone⟩ | ⟨hbusy'', hhandle', htotal', gs, hgs⟩ :=
        engineTick_ended_or_counts c hbusy' (by omega)
      · refine .inl ⟨hidle, es ++ gs ++ fs, by simp only [hgs, hes, List.append_assoc], ?_⟩
        rw [hhandle] at hone
        simp only [confirmsOf_append]
        omega
      · have hpos : 1 ≤ (engineTick c t).eng.totalTimer.toNat := by
          have hinv : (engineTick c t).eng.totalTimer.toNat + 1 = t.eng.totalTimer.toNat := htotal'
          by_contra hzero
          have hlast : t.eng.totalTimer = 1 := BitVec.eq_of_toNat_eq (show t.eng.totalTimer.toNat = 1 by omega)
          obtain ⟨h, -⟩ | ⟨-, -, e⟩ | ⟨-, hne, -⟩ := engineTick_cases c t
          · exact hbusy' h
          · exact hbusy'' (by rw [e]; rfl)
          · exact hne hlast
        exact .inr ⟨by omega, hbusy'', hhandle'.trans hhandle, by omega, es ++ gs ++ fs,
          by simp only [hgs, hes, List.append_assoc]⟩

/-- Settles O42: after as many symbols as the total timer held, the request cannot still be in the engine. -/
theorem requestEndsWithinItsTotalTime : Obligations.RequestEndsWithinItsTotalTime := by
  intro s t n hon hbusy htime hle h
  obtain rfl := Host.Outcome.next.inj ((exec_tick_of_on hon n).symm.trans h)
  obtain hended | ⟨hlt, -⟩ := ticks_ended_or_counts Config.platform hbusy htime n.toNat
  · exact hended
  · exact absurd hle (Nat.not_le.mpr hlt)

/-! ## The held entries (R226, R228) -/

/-- The entries that are still held after `n` ticks, with `n` less. -/
def heldAfter (n : Nat) (q : List Entry) : List Entry :=
  (q.filter (fun e => decide (n < e.persist.toNat))).map
    (fun e => { e with persist := BitVec.ofNat 16 (e.persist.toNat - n) })

theorem oneTick_queue_persist {c : Params} {s : State} (hq : ∀ e ∈ s.queue, 1 ≤ e.persist.toNat) :
    ∀ e ∈ (oneTick c s).queue, 1 ≤ e.persist.toNat := by
  intro e he
  rw [oneTick_queue, List.mem_filter, List.mem_map] at he
  obtain ⟨⟨e₀, he₀, rfl⟩, hlive⟩ := he
  have hpersist := hq e₀ he₀
  rw [aged_expired hpersist] at hlive
  rw [aged_toNat hpersist]
  have hne : e₀.persist.toNat ≠ 1 := by simpa using hlive
  omega

theorem heldAfter_oneTick {q : List Entry} (hq : ∀ e ∈ q, 1 ≤ e.persist.toNat) (n : Nat) :
    heldAfter n ((q.map Entry.aged).filter (fun e => !e.expired)) = heldAfter (n + 1) q := by
  have hheld : ∀ e ∈ q, ((fun e => decide (n < e.persist.toNat) && !e.expired) ∘ Entry.aged) e =
      decide (n + 1 < e.persist.toNat) := by
    intro e he
    have hpersist := hq e he
    simp only [Function.comp, aged_toNat hpersist, aged_expired hpersist, ← decide_not, ← Bool.decide_and]
    exact decide_eq_decide.mpr (by omega)
  rw [heldAfter, heldAfter, List.filter_filter, List.filter_map, List.map_map, List.filter_congr hheld]
  refine List.map_congr_left fun e he => ?_
  have hpersist := hq e (List.mem_of_mem_filter he)
  simp only [Function.comp, aged_toNat hpersist]
  rw [Entry.aged, Nat.sub_sub, Nat.add_comm 1 n]

theorem ticks_queue (c : Params) {s : State} (hq : ∀ e ∈ s.queue, 1 ≤ e.persist.toNat) (n : Nat) :
    (ticks c n s).queue = heldAfter n s.queue := by
  induction n generalizing s with
  | zero =>
    have hall : s.queue.filter (fun e => decide (0 < e.persist.toNat)) = s.queue :=
      List.filter_eq_self.mpr fun e he => decide_eq_true (hq e he)
    simp [ticks, heldAfter, hall]
  | succ n ih =>
    rw [ticks, ih (oneTick_queue_persist hq), oneTick_queue, heldAfter_oneTick hq]

/-- The window's tick emits nothing but RADIO_RX. -/
theorem windowTick_events (s : State) :
    ∃ rx, (windowTick s).events = s.events ++ rx ∧ rx.filter (fun e => !e.isRadioRx) = [] := by
  obtain ⟨-, e⟩ | ⟨-, -, e⟩ | ⟨-, -, e⟩ := windowTick_cases s <;> rw [e]
  · exact ⟨[], (List.append_nil _).symm, rfl⟩
  · exact ⟨[.radioRx (rxOn (s.setWindow false 0))], rfl, rfl⟩
  · exact ⟨[], (List.append_nil _).symm, rfl⟩

/-- The confirms of the entries that expire in one tick (R226). -/
def expiredNow (q : List Entry) : List Event :=
  ((q.map Entry.aged).filter Entry.expired).map (fun e => .confData e.handle .transactionExpired)

/-- One tick's events: the engine's, the expiries of held entries, and RADIO_RX when the window closes (R289). -/
theorem oneTick_events_parts (c : Params) (s : State) :
    ∃ rx, (oneTick c s).events = (engineTick c s).events ++ (expiredNow s.queue ++ rx) ∧
      rx.filter (fun e => !e.isRadioRx) = [] := by
  obtain ⟨rx, hrx, honly⟩ := windowTick_events (queueTick (engineTick c s))
  refine ⟨rx, ?_, honly⟩
  rw [oneTick, hrx, ← (engineTick_frame c s).queue, ← List.append_assoc]
  rfl

theorem oneTick_idle (c : Params) {s : State} (hidle : s.eng.st = .idle) : (oneTick c s).eng.st = .idle := by
  rw [oneTick_eng, engineTick, if_pos hidle]
  exact hidle

/-- The expiry confirms stand in the output in their order, and with an idle engine they are all but RADIO_RX. -/
theorem ticks_expiryConfirms (c : Params) {s : State} (hq : ∀ e ∈ s.queue, 1 ≤ e.persist.toNat) (n : Nat) :
    ∃ es, (ticks c n s).events = s.events ++ es ∧ (expiryConfirms s.queue n).Sublist es ∧
      (s.eng.st = .idle → es.filter (fun e => !e.isRadioRx) = expiryConfirms s.queue n) := by
  induction n generalizing s with
  | zero => exact ⟨[], (List.append_nil _).symm, List.Sublist.refl _, fun _ => rfl⟩
  | succ n ih =>
    obtain ⟨es, hes, -⟩ := (engineTick_writes c s).emits
    obtain ⟨rx, hone, hrx⟩ := oneTick_events_parts c s
    obtain ⟨fs, hfs, hsub, hrest⟩ := ih (oneTick_queue_persist (c := c) hq)
    rw [oneTick_queue] at hsub hrest
    rw [expiryConfirms_oneTick hq]
    refine ⟨es ++ (expiredNow s.queue ++ rx) ++ fs, by rw [ticks, hfs, hone, hes]; simp only [List.append_assoc], ?_,
      fun h => ?_⟩
    · exact ((List.sublist_append_left _ rx).trans (List.sublist_append_right es _)).append hsub
    · have hsilent : es = [] := by
        have hsame : engineTick c s = s := if_pos h
        rw [hsame] at hes
        exact List.self_eq_append_right.mp hes
      rw [hsilent, List.nil_append, List.filter_append, List.filter_append, hrx, hrest (oneTick_idle c h),
        List.append_nil]
      refine congrArg (· ++ _) (List.filter_eq_self.mpr fun e he => ?_)
      obtain ⟨_, -, rfl⟩ := List.mem_map.mp he
      rfl

theorem countP_heldAfter (n : Nat) (q : List Entry) (h : Byte) :
    (heldAfter n q).countP (fun e => decide (e.handle = h)) +
      q.countP (fun e => decide (e.handle = h ∧ e.persist.toNat ≤ n)) = q.countP (fun e => decide (e.handle = h)) := by
  induction q with
  | nil => rfl
  | cons e q ih =>
    by_cases hheld : n < e.persist.toNat
    · have hcons : heldAfter n (e :: q) =
          { e with persist := BitVec.ofNat 16 (e.persist.toNat - n) } :: heldAfter n q := by
        simp only [heldAfter, List.filter_cons, decide_eq_true hheld, if_true, List.map_cons]
      simp only [hcons, List.countP_cons, decide_eq_true_eq, Nat.not_le.mpr hheld, and_false, if_false]
      omega
    · have hcons : heldAfter n (e :: q) = heldAfter n q := by
        simp only [heldAfter, List.filter_cons, decide_eq_false hheld, Bool.false_eq_true, if_false]
      simp only [hcons, List.countP_cons, decide_eq_true_eq, Nat.le_of_not_lt hheld, and_true]
      omega

/-- Settles O43: the queue by `ticks_queue`, the confirms' order by `ticks_expiryConfirms`, and their number by the
accounting of ticks, less what is still held. -/
theorem heldEntriesCountDown : Obligations.HeldEntriesCountDown := by
  intro s t n hon hq h
  obtain rfl := Host.Outcome.next.inj ((exec_tick_of_on hon n).symm.trans h)
  have hqueue := ticks_queue Config.platform hq n.toNat
  obtain ⟨es, hes, hsub, hidle⟩ := ticks_expiryConfirms Config.platform hq n.toNat
  refine ⟨hqueue, es, hes, hsub, fun b => ?_, hidle⟩
  obtain ⟨fs, hfs, hacc⟩ := ticks_accounts Config.platform n.toNat s
  obtain rfl : es = fs := List.append_cancel_left (hes.symm.trans hfs)
  have hb := hacc b
  have hcount := countP_heldAfter n.toNat s.queue b
  rw [liveRequests_eq, liveRequests_eq, hqueue] at hb
  have hnone : noneOf b = 0 := rfl
  show confirmsOf b es + engineLive (ticks Config.platform n.toNat s).eng b = _ + engineLive s.eng b
  omega

/-! ## The window (R255) -/

/-- What one tick does to the window and the receiver, whatever the engine and the queue do. -/
theorem oneTick_window (c : Params) {s : State} (hwindow : s.windowActive = true ↔ s.windowTimer ≠ 0) :
    (oneTick c s).windowActive = (s.windowActive && decide (1 < s.windowTimer.toNat)) ∧
    (oneTick c s).windowTimer = BitVec.ofNat 24 (s.windowTimer.toNat - 1) ∧
    (oneTick c s).radioRx =
      (if s.windowActive ∧ s.windowTimer.toNat ≤ 1 then s.pib.rxOnWhenIdle else s.radioRx) := by
  have hkeeps : KeepsReceiver s (queueTick (engineTick c s)) :=
    (engineTick_keepsReceiver c s).trans (queueTick_keepsReceiver _)
  have htimer : (queueTick (engineTick c s)).windowTimer = s.windowTimer := (engineTick_frame c s).windowTimer
  unfold oneTick
  obtain ⟨hclosed, e⟩ | ⟨hopen, hone, e⟩ | ⟨hopen, hne, e⟩ := windowTick_cases (queueTick (engineTick c s)) <;>
    rw [e]
  · rw [hkeeps.window] at hclosed
    have hzero : s.windowTimer = 0 := by
      by_contra hne
      rw [hwindow.mpr hne] at hclosed
      cases hclosed
    rw [hkeeps.window, htimer, hkeeps.radioRx, hclosed, hzero]
    exact ⟨rfl, rfl, rfl⟩
  · rw [hkeeps.window] at hopen
    rw [htimer] at hone
    rw [hopen, hone]
    exact ⟨rfl, rfl, (Bool.or_false _).trans hkeeps.policy⟩
  · rw [hkeeps.window] at hopen
    rw [htimer] at hne ⊢
    have hzero := hwindow.mp hopen
    have hmore : 1 < s.windowTimer.toNat := by bv_omega
    rw [hopen, if_neg (fun h => absurd h.2 (Nat.not_le.mpr hmore)), decide_eq_true hmore]
    refine ⟨rfl, ?_, hkeeps.radioRx⟩
    exact BitVec.eq_of_toNat_eq (by rw [State.setWindow_windowTimer]; bv_omega)

theorem oneTick_policy (c : Params) (s : State) : (oneTick c s).pib.rxOnWhenIdle = s.pib.rxOnWhenIdle := by
  rw [oneTick_pib, (engineTick_frame c s).pib]

theorem ticks_window (c : Params) {s : State} (hwindow : s.windowActive = true ↔ s.windowTimer ≠ 0) (n : Nat) :
    (ticks c n s).windowActive = (s.windowActive && decide (n < s.windowTimer.toNat)) ∧
    (ticks c n s).windowTimer = BitVec.ofNat 24 (s.windowTimer.toNat - n) ∧
    (ticks c n s).radioRx =
      (if s.windowActive ∧ s.windowTimer.toNat ≤ n then s.pib.rxOnWhenIdle else s.radioRx) := by
  induction n generalizing s with
  | zero =>
    have hpos : s.windowActive = true → 0 < s.windowTimer.toNat := fun h => by
      have := hwindow.mp h
      bv_omega
    refine ⟨?_, ?_, ?_⟩
    · cases hopen : s.windowActive with
      | false => exact hopen
      | true => rw [decide_eq_true (hpos hopen)]; exact hopen
    · rw [Nat.sub_zero, BitVec.ofNat_toNat, BitVec.setWidth_eq]
      rfl
    · rw [if_neg fun h => absurd h.2 (Nat.not_le.mpr (hpos h.1))]
      rfl
  | succ n ih =>
    obtain ⟨hactive, htimer, hrx⟩ := oneTick_window c hwindow
    have hlt := s.windowTimer.isLt
    have htimerNat : (oneTick c s).windowTimer.toNat = s.windowTimer.toNat - 1 := by
      rw [htimer, BitVec.toNat_ofNat]
      exact Nat.mod_eq_of_lt (by omega)
    have hinv : (oneTick c s).windowActive = true ↔ (oneTick c s).windowTimer ≠ 0 := by
      have hzero : (oneTick c s).windowTimer ≠ 0 ↔ 1 < s.windowTimer.toNat := by
        rw [← not_iff_not, not_not, ← BitVec.toNat_inj, htimerNat]
        show s.windowTimer.toNat - 1 = 0 ↔ _
        omega
      rw [hactive, hzero, Bool.and_eq_true, decide_eq_true_iff]
      refine and_iff_right_of_imp fun h => hwindow.mpr fun h0 => ?_
      rw [h0] at h
      cases h
    obtain ⟨hactive', htimer', hrx'⟩ := ih hinv
    rw [ticks, hactive', htimer', hrx', hactive, htimerNat, oneTick_policy, hrx]
    refine ⟨?_, by rw [Nat.sub_sub, Nat.add_comm 1 n], ?_⟩
    · rw [Bool.and_assoc, ← Bool.decide_and]
      exact congrArg _ (decide_eq_decide.mpr (by omega))
    · cases s.windowActive with
      | false => simp
      | true =>
        simp only [Bool.true_and, decide_eq_true_eq, true_and]
        split_ifs <;> first | rfl | omega

/-- Settles O44: it is `ticks_window`. -/
theorem windowCountsDownAndCloses : Obligations.WindowCountsDownAndCloses := by
  intro s t n hon hwindow h
  obtain rfl := Host.Outcome.next.inj ((exec_tick_of_on hon n).symm.trans h)
  exact ticks_window Config.platform hwindow n.toNat

end Sys2Proof
end

section
/-! PROOFS. Noninterference by commutation (spec/10_state.md R27, spec/45_rx_scheduler.md R259): a change of state that an
operation neither reads nor overwrites may be made before it or after it. -/

namespace Sys2Proof

open Machine

/-! ## The engine's operations and a change outside the engine -/

/-- A change outside the engine that leaves the lifecycle and the responses alone. -/
structure OutsideOps (W : State → State) : Prop extends OutsideEngine W where
  life : ∀ s, (W s).life = s.life
  answer : ∀ s r, W (s.answer r) = (W s).answer r

theorem OutsideEngine.eng {W : State → State} (hW : OutsideEngine W) (s : State) : (W s).eng = s.eng :=
  (hW.alike s).eng.symm

theorem emit_frame (s : State) (e : Event) : EngineFrame s (s.emit e) :=
  ⟨rfl, rfl, rfl, rfl, rfl, rfl, rfl, rfl, rfl⟩

theorem OutsideEngine.emit {W : State → State} (hW : OutsideEngine W) (e : Event) (s : State) :
    (W s).emit e = W (s.emit e) :=
  hW.comm (fun s => emit_frame s e) (fun h => emit_same h rfl) s

theorem OutsideEngine.finish {W : State → State} (hW : OutsideEngine W) (st : Status) (s : State) :
    finish st (W s) = W (finish st s) := hW.comm (finish_frame st) (fun h => finish_same h st) s

theorem OutsideEngine.busyCca {W : State → State} (hW : OutsideEngine W) (c : Params) (s : State) :
    busyCca c (W s) = W (busyCca c s) :=
  hW.comm (f := Machine.busyCca c) (fun s => setEng_frame s _) (fun h => setEng_same h (by rw [h.eng])) s

theorem OutsideEngine.startCycle {W : State → State} (hW : OutsideEngine W) (c : Params) (s : State) :
    startCycle c (W s) = W (startCycle c s) := hW.comm (startCycle_frame c) (startCycle_same c) s

theorem OutsideOps.done {W : State → State} (hW : OutsideOps W) {f : State → State} {s : State}
    (h : f (W s) = W (f s)) : (f (W s)).done = W (f s).done := by
  rw [h]
  exact (hW.answer _ _).symm

theorem OutsideOps.refuse {W : State → State} (hW : OutsideOps W) (s : State) : refuse (W s) = W (refuse s) :=
  (hW.answer _ _).symm

theorem ccaResult_comm {W : State → State} (hW : OutsideOps W) (c : Params) (busy : Bool) (s : State) :
    ccaResult c busy (W s) = W (ccaResult c busy s) := by
  have hbusy := hW.busyCca c s
  unfold ccaResult
  rw [hbusy, hW.eng, hW.eng, hW.life]
  split_ifs
  · exact hW.done (hW.finish .channelAccessFailure (busyCca c s))
  · exact hW.done (hW.comm (startBackoff_frame c) (startBackoff_same c) (busyCca c s))
  · exact hW.done (hW.comm transmit_frame transmit_same s)
  · exact hW.refuse s

theorem txDone_comm {W : State → State} (hW : OutsideOps W) (c : Params) (s : State) :
    txDone c (W s) = W (txDone c s) := by
  unfold txDone
  rw [hW.eng, hW.life]
  split_ifs
  · exact hW.done (hW.finish .success s)
  · exact hW.done (hW.comm (ackFail_frame c) (ackFail_same c) s)
  · exact hW.done (f := fun u => u.setEng { s.eng with ackTimer := s.eng.sAckWait, st := .ackWait })
      (hW.comm (fun u => setEng_frame u _) (fun h => setEng_same h rfl) s)
  · exact hW.refuse s

theorem ackRx_comm {W : State → State} (hW : OutsideOps W) (seq : Byte) (s : State) :
    ackRx seq (W s) = W (ackRx seq s) := by
  unfold ackRx
  rw [hW.eng, hW.life]
  split_ifs
  · exact hW.done (hW.finish .success s)
  · exact hW.refuse s

/-- DATA_REQ reads more than the engine only where it holds or accepts the request. -/
theorem dataReq_comm {W : State → State} (hW : OutsideOps W) {c : Params} {h l : Byte} {ind ack : Bool} {s : State}
    (hheld : ind = true → enqueue c h l ack (W s) = W (enqueue c h l ack s))
    (haccepted : s.eng.st = .idle → startRequest c h l ack (W s) = W (startRequest c h l ack s)) :
    dataReq c h l ind ack (W s) = W (dataReq c h l ind ack s) := by
  unfold dataReq
  rw [hW.eng, hW.life]
  split_ifs with _ _ hind hidle
  · exact hW.done (f := (·.emit _)) (hW.emit _ s)
  · exact hW.done (hheld hind)
  · exact hW.done (haccepted hidle)
  · exact hW.done (f := (·.emit _)) (hW.emit _ s)
  · exact hW.refuse s

/-- IND_RELEASE reads the queue, and more than the engine only where it releases a request. -/
theorem indRelease_comm {W : State → State} (hW : OutsideOps W) {c : Params} {h : Byte} {s : State}
    (hqueue : (W s).queue = s.queue)
    (hreleased : s.eng.st = .idle → ∀ k l a q,
      startRequest c k l a ((W s).setQueue q) = W (startRequest c k l a (s.setQueue q))) :
    indRelease c h (W s) = W (indRelease c h s) := by
  unfold indRelease
  rw [hW.eng, hW.life, hqueue]
  by_cases hon : s.life = .on
  · rw [if_pos hon, if_pos hon]
    cases oldest s.queue h with
    | none => exact (hW.answer _ _).symm
    | some e =>
      by_cases hidle : s.eng.st = .idle
      · simp only [if_pos hidle]
        rw [hreleased hidle]
        exact (hW.answer _ _).symm
      · simp only [if_neg hidle]
        exact (hW.answer _ _).symm
  · rw [if_neg hon, if_neg hon]
    exact hW.refuse s

/-! ## The PIB while a request is in progress (R27, R321) -/

/-- Other values in every PIB register but `dsn`. -/
def withPib (p : Pib) (s : State) : State := { s with pib := { p with dsn := s.pib.dsn } }

theorem outsideOps_withPib (p : Pib) : OutsideOps (withPib p) where
  alike _ := ⟨rfl, rfl, rfl⟩
  on _ _ := rfl
  life _ := rfl
  answer _ _ := rfl

/-- The window's tick reads `rxOnWhenIdle` of the PIB and nothing else of it. -/
theorem windowTick_withPib {p : Pib} {s : State} (hpolicy : p.rxOnWhenIdle = s.pib.rxOnWhenIdle) :
    windowTick (withPib p s) = withPib p (windowTick s) := by
  have hdecision : applyRx ((withPib p s).setWindow false 0) = withPib p (applyRx (s.setWindow false 0)) := by
    have hrx : rxOn ((withPib p s).setWindow false 0) = rxOn (s.setWindow false 0) := congrArg (· || false) hpolicy
    rw [applyRx, hrx]
    rfl
  unfold windowTick
  rw [hdecision, apply_ite (withPib p), apply_ite (withPib p)]
  rfl

theorem oneTick_withPib {c : Params} {p : Pib} {s : State} (hpolicy : p.rxOnWhenIdle = s.pib.rxOnWhenIdle) :
    oneTick c (withPib p s) = withPib p (oneTick c s) := by
  have hsame : p.rxOnWhenIdle = (queueTick (engineTick c s)).pib.rxOnWhenIdle := by
    show _ = (engineTick c s).pib.rxOnWhenIdle
    rw [(engineTick_frame c s).pib, hpolicy]
  rw [oneTick, (outsideOps_withPib p).engineTick]
  exact windowTick_withPib hsame

theorem ticks_withPib {c : Params} {p : Pib} {s : State} (hpolicy : p.rxOnWhenIdle = s.pib.rxOnWhenIdle) (n : Nat) :
    ticks c n (withPib p s) = withPib p (ticks c n s) := by
  induction n generalizing s with
  | zero => rfl
  | succ n ih =>
    rw [ticks, oneTick_withPib hpolicy]
    exact ih (hpolicy.trans (oneTick_policy c s).symm)

theorem tick_withPib {c : Params} {p : Pib} {s : State} (hpolicy : p.rxOnWhenIdle = s.pib.rxOnWhenIdle) (n : Symbols) :
    tick c n (withPib p s) = withPib p (tick c n s) := by
  have hrun : (ticks c n.toNat (withPib p s)).done = withPib p (ticks c n.toNat s).done := by
    rw [ticks_withPib hpolicy]
    rfl
  unfold tick
  rw [hrun, apply_ite (withPib p)]
  rfl

/-- Settles O59: each of the operations commutes with the change of the PIB; a busy engine accepts and releases nothing. -/
theorem engineReadsItsSnapshot : Obligations.EngineReadsItsSnapshot := by
  intro i s t p hi h hdsn
  have hW := outsideOps_withPib p
  have hstart : ({ s with pib := p } : State) = withPib p s := by rw [withPib, ← hdsn]
  suffices hcomm : exec i (withPib p s) = .next (withPib p t) by rw [hstart, hcomm]; rfl
  obtain ⟨b, rfl⟩ | rfl | ⟨q, rfl⟩ | ⟨hbusy, ⟨k, l, ack, rfl⟩ | ⟨k, rfl⟩⟩ | ⟨⟨n, rfl⟩, hpolicy⟩ := hi <;> cases h
  · exact congrArg Host.Outcome.next (ccaResult_comm hW _ b s)
  · exact congrArg Host.Outcome.next (txDone_comm hW _ s)
  · exact congrArg Host.Outcome.next (ackRx_comm hW q s)
  · exact congrArg Host.Outcome.next (dataReq_comm hW nofun fun hidle => absurd hidle hbusy)
  · exact congrArg Host.Outcome.next (indRelease_comm hW rfl fun hidle => absurd hidle hbusy)
  · exact congrArg Host.Outcome.next (tick_withPib hpolicy n)

end Sys2Proof
end

section
/-! PROOFS. The engine and the RX scheduler apart (spec/45_rx_scheduler.md R259): what each unit's operations leave alone,
and that neither unit's part of an operation depends on the other unit. -/

namespace Sys2Proof

open Machine

/-! ## What each unit leaves alone -/

theorem dataReq_windowTimer (c : Params) (h l : Byte) (ind ack : Bool) (s : State) :
    (dataReq c h l ind ack s).windowTimer = s.windowTimer := by
  obtain ⟨-, e⟩ | ⟨-, -, e⟩ | ⟨-, -, -, e⟩ | ⟨-, -, -, -, e⟩ | ⟨-, -, -, -, e⟩ := dataReq_cases c h l ind ack s <;> rw [e]
  · rfl
  · rfl
  · obtain ⟨-, e⟩ | ⟨-, -, e⟩ | ⟨-, -, e⟩ := enqueue_cases c h l ack s <;> rw [e] <;> rfl
  · exact (startRequest_frame c h l ack s).windowTimer
  · rfl

theorem ccaResult_windowTimer (c : Params) (busy : Bool) (s : State) :
    (ccaResult c busy s).windowTimer = s.windowTimer := by
  obtain ⟨-, e⟩ | ⟨-, -, -, -, e⟩ | ⟨-, -, -, -, e⟩ | ⟨-, -, -, e⟩ := ccaResult_cases c busy s <;> rw [e]
  · rfl
  · rfl
  · exact (startBackoff_frame c (busyCca c s)).windowTimer
  · exact (transmit_frame s).windowTimer

theorem txDone_windowTimer (c : Params) (s : State) : (txDone c s).windowTimer = s.windowTimer := by
  obtain ⟨-, e⟩ | ⟨-, -, -, e⟩ | ⟨-, -, -, -, e⟩ | ⟨-, -, -, -, e⟩ := txDone_cases c s <;> rw [e]
  · rfl
  · rfl
  · exact (ackFail_frame c s).windowTimer
  · rfl

theorem ackRx_windowTimer (seq : Byte) (s : State) : (ackRx seq s).windowTimer = s.windowTimer := by
  obtain ⟨-, e⟩ | ⟨-, -, -, e⟩ := ackRx_cases seq s <;> rw [e] <;> rfl

theorem indRelease_windowTimer (c : Params) (h : Byte) (s : State) :
    (indRelease c h s).windowTimer = s.windowTimer := by
  obtain ⟨-, e⟩ | ⟨-, -, e⟩ | ⟨-, -, -, e⟩ | ⟨-, -, en, -, e⟩ := indRelease_cases c h s <;> rw [e]
  · rfl
  · rfl
  · rfl
  · exact (startRequest_frame c en.handle en.len en.ackReq (s.setQueue _)).windowTimer

theorem purge_windowTimer (h : Byte) (s : State) : (purge h s).windowTimer = s.windowTimer := by
  obtain ⟨-, e⟩ | ⟨-, -, e⟩ | ⟨-, -, e⟩ := purge_cases h s <;> rw [e] <;> rfl

/-- The operations of the engine and the queue, TICK apart. -/
def IsEngineOp (i : Instr) : Prop :=
  (∃ h l ind ack, i = .dataReq h l ind ack) ∨ (∃ b, i = .ccaResult b) ∨ i = .txDone ∨ (∃ q, i = .ackRx q) ∨
    (∃ h, i = .indRelease h) ∨ ∃ h, i = .purge h

/-- The operations of the RX-enable scheduler, TICK apart. -/
def IsSchedulerOp (i : Instr) : Prop :=
  (∃ stop start dur, i = .rxEnable stop start dur) ∨ i = .isRxEnabled ∨ i = .startRx

theorem engineOp_keepsReceiver {i : Instr} {s t : State} (h : exec i s = .next t) (hi : IsEngineOp i) :
    KeepsReceiver s t ∧ t.windowTimer = s.windowTimer := by
  obtain ⟨k, l, ind, ack, rfl⟩ | ⟨b, rfl⟩ | rfl | ⟨q, rfl⟩ | ⟨k, rfl⟩ | ⟨k, rfl⟩ := hi <;> cases h
  · exact ⟨dataReq_keepsReceiver _ k l ind ack s, dataReq_windowTimer _ k l ind ack s⟩
  · exact ⟨ccaResult_keepsReceiver _ b s, ccaResult_windowTimer _ b s⟩
  · exact ⟨txDone_keepsReceiver _ s, txDone_windowTimer _ s⟩
  · exact ⟨ackRx_keepsReceiver q s, ackRx_windowTimer q s⟩
  · exact ⟨indRelease_keepsReceiver _ k s, indRelease_windowTimer _ k s⟩
  · exact ⟨purge_keepsReceiver k s, purge_windowTimer k s⟩

theorem schedulerOp_keepsEngine {i : Instr} {s t : State} (h : exec i s = .next t) (hi : IsSchedulerOp i) :
    t.eng = s.eng ∧ t.queue = s.queue ∧ t.pib = s.pib ∧ t.draws = s.draws := by
  obtain ⟨stop, start, dur, rfl⟩ | rfl | rfl := hi <;> cases h
  · obtain ⟨-, e⟩ | ⟨-, -, e⟩ | ⟨-, -, e⟩ := rxEnable_cases stop start dur s <;> rw [e]
    · exact ⟨rfl, rfl, rfl, rfl⟩
    · rw [moveWindow_eq]
      exact ⟨rfl, rfl, rfl, rfl⟩
    · rw [moveWindow_eq]
      exact ⟨rfl, rfl, rfl, rfl⟩
  · obtain ⟨-, e⟩ | ⟨-, e⟩ := isRxEnabled_cases s <;> rw [e] <;> exact ⟨rfl, rfl, rfl, rfl⟩
  · obtain ⟨-, e⟩ | ⟨-, e⟩ := startRx_cases s <;> rw [e] <;> exact ⟨rfl, rfl, rfl, rfl⟩

/-! ## The engine's operations with another receiver -/

/-- Another window, receiver and `rxOnWhenIdle`. -/
def withReceiver (active : Bool) (timer : BitVec 24) (rx policy : Bool) (s : State) : State :=
  { s with
    windowActive := active, windowTimer := timer, radioRx := rx,
    pib := { s.pib with rxOnWhenIdle := policy } }

theorem outsideOps_withReceiver (active : Bool) (timer : BitVec 24) (rx policy : Bool) :
    OutsideOps (withReceiver active timer rx policy) where
  alike _ := ⟨rfl, rfl, rfl⟩
  on _ _ := rfl
  life _ := rfl
  answer _ _ := rfl

/-- An accepted request latches no `rxOnWhenIdle` (R30). -/
theorem startRequest_withReceiver (c : Params) (h l : Byte) (a : Bool) (active : Bool) (timer : BitVec 24)
    (rx policy : Bool) (s : State) :
    startRequest c h l a (withReceiver active timer rx policy s) =
      withReceiver active timer rx policy (startRequest c h l a s) := by
  have hW := outsideOps_withReceiver active timer rx policy
  have hwait : (withReceiver active timer rx policy s).pib.maxFrameTotalWaitTime = s.pib.maxFrameTotalWaitTime := rfl
  unfold startRequest
  rw [hwait, apply_ite (withReceiver active timer rx policy)]
  refine if_congr Iff.rfl ?_ ?_
  · exact hW.finish c.totalWaitStatus (latchRequest h l a s)
  · exact hW.startCycle c (loadTotal (latchRequest h l a s))

theorem enqueue_withReceiver (c : Params) (h l : Byte) (a : Bool) (active : Bool) (timer : BitVec 24)
    (rx policy : Bool) (s : State) :
    enqueue c h l a (withReceiver active timer rx policy s) =
      withReceiver active timer rx policy (enqueue c h l a s) := by
  unfold enqueue
  rw [apply_ite (withReceiver active timer rx policy), apply_ite (withReceiver active timer rx policy)]
  rfl

theorem purge_withReceiver (h : Byte) (active : Bool) (timer : BitVec 24) (rx policy : Bool) (s : State) :
    purge h (withReceiver active timer rx policy s) = withReceiver active timer rx policy (purge h s) := by
  unfold purge
  rw [apply_ite (withReceiver active timer rx policy)]
  refine if_congr Iff.rfl ?_ rfl
  show (match oldest s.queue h with | none => _ | some _ => _) = _
  cases oldest s.queue h <;> rfl

theorem engineOp_withReceiver {i : Instr} {s t : State} (h : exec i s = .next t) (hi : IsEngineOp i) (active : Bool)
    (timer : BitVec 24) (rx policy : Bool) :
    exec i (withReceiver active timer rx policy s) = .next (withReceiver active timer rx policy t) := by
  have hW := outsideOps_withReceiver active timer rx policy
  obtain ⟨k, l, ind, ack, rfl⟩ | ⟨b, rfl⟩ | rfl | ⟨q, rfl⟩ | ⟨k, rfl⟩ | ⟨k, rfl⟩ := hi <;> cases h
  · exact congrArg Host.Outcome.next (dataReq_comm hW (fun _ => enqueue_withReceiver _ _ _ _ _ _ _ _ s)
      fun _ => startRequest_withReceiver _ _ _ _ _ _ _ _ s)
  · exact congrArg Host.Outcome.next (ccaResult_comm hW _ b s)
  · exact congrArg Host.Outcome.next (txDone_comm hW _ s)
  · exact congrArg Host.Outcome.next (ackRx_comm hW q s)
  · exact congrArg Host.Outcome.next (indRelease_comm hW rfl
      fun _ k l a q => startRequest_withReceiver _ k l a _ _ _ _ (s.setQueue q))
  · exact congrArg Host.Outcome.next (purge_withReceiver k active timer rx policy s)

/-! ## The scheduler's operations with another engine -/

/-- Another engine, queue and oracle counter. -/
def withEngine (eng : Engine) (queue : List Entry) (draws : Nat) (s : State) : State :=
  { s with eng := eng, queue := queue, draws := draws }

theorem moveWindow_withEngine (stop start : Bool) (dur : Symbols) (eng : Engine) (queue : List Entry) (draws : Nat)
    (s : State) :
    moveWindow stop start dur (withEngine eng queue draws s) = withEngine eng queue draws (moveWindow stop start dur s) := by
  rw [moveWindow_eq, moveWindow_eq]
  rfl

theorem schedulerOp_withEngine {i : Instr} {s t : State} (h : exec i s = .next t) (hi : IsSchedulerOp i) (eng : Engine)
    (queue : List Entry) (draws : Nat) :
    exec i (withEngine eng queue draws s) = .next (withEngine eng queue draws t) := by
  obtain ⟨stop, start, dur, rfl⟩ | rfl | rfl := hi <;> cases h <;> refine congrArg Host.Outcome.next ?_
  · unfold rxEnable
    rw [moveWindow_withEngine, apply_ite (withEngine eng queue draws), apply_ite (withEngine eng queue draws)]
    rfl
  · unfold isRxEnabled
    rw [apply_ite (withEngine eng queue draws)]
    rfl
  · unfold startRx
    rw [apply_ite (withEngine eng queue draws)]
    rfl

/-! ## TICK: the engine's side -/

/-- The same engine, queue and oracle counter, and the same PIB but for `rxOnWhenIdle`. -/
structure SameEngineSide (s s' : State) : Prop where
  alike : EngineAlike s s'
  queue : s.queue = s'.queue
  pib : s'.pib = { s.pib with rxOnWhenIdle := s'.pib.rxOnWhenIdle }

/-- Two runs emitted the same but for RADIO_RX. -/
def SameButRx (s s' t t' : State) : Prop :=
  ∃ es fs, t.events = s.events ++ es ∧ t'.events = s'.events ++ fs ∧
    fs.filter (fun e => !e.isRadioRx) = es.filter (fun e => !e.isRadioRx)

theorem SameButRx.trans {s s' t t' u u' : State} (h : SameButRx s s' t t') (k : SameButRx t t' u u') :
    SameButRx s s' u u' := by
  obtain ⟨es, fs, hes, hfs, heq⟩ := h
  obtain ⟨es', fs', hes', hfs', heq'⟩ := k
  exact ⟨es ++ es', fs ++ fs', by rw [hes', hes, List.append_assoc], by rw [hfs', hfs, List.append_assoc],
    by rw [List.filter_append, List.filter_append, heq, heq']⟩

theorem oneTick_draws (c : Params) (s : State) : (oneTick c s).draws = (engineTick c s).draws := by
  obtain ⟨-, -, -, -, -, -, -, hdraws⟩ := windowTick_keeps (queueTick (engineTick c s))
  exact hdraws

theorem oneTick_sameEngineSide (c : Params) {s s' : State} (h : SameEngineSide s s') :
    SameEngineSide (oneTick c s) (oneTick c s') ∧ SameButRx s s' (oneTick c s) (oneTick c s') := by
  obtain ⟨⟨heng, hdsn, hdraws⟩, es, hes, hes'⟩ := engineTick_same c h.alike
  obtain ⟨rx, hev, hrx⟩ := oneTick_events_parts c s
  obtain ⟨rx', hev', hrx'⟩ := oneTick_events_parts c s'
  refine ⟨⟨⟨?_, ?_, ?_⟩, ?_, ?_⟩, es ++ (expiredNow s.queue ++ rx), es ++ (expiredNow s'.queue ++ rx'), ?_, ?_, ?_⟩
  · rw [oneTick_eng, oneTick_eng, heng]
  · rw [oneTick_pib, oneTick_pib, hdsn]
  · rw [oneTick_draws, oneTick_draws, hdraws]
  · rw [oneTick_queue, oneTick_queue, h.queue]
  · rw [oneTick_pib, oneTick_pib, (engineTick_frame c s').pib, (engineTick_frame c s).pib, ← hdsn, h.pib]
  · rw [hev, hes, List.append_assoc]
  · rw [hev', hes', List.append_assoc]
  · simp only [List.filter_append, hrx, hrx', h.queue]

theorem ticks_sameEngineSide (c : Params) (n : Nat) {s s' : State} (h : SameEngineSide s s') :
    SameEngineSide (ticks c n s) (ticks c n s') ∧ SameButRx s s' (ticks c n s) (ticks c n s') := by
  induction n generalizing s s' with
  | zero => exact ⟨h, [], [], (List.append_nil _).symm, (List.append_nil _).symm, rfl⟩
  | succ n ih =>
    obtain ⟨hside, hev⟩ := oneTick_sameEngineSide c h
    obtain ⟨hside', hev'⟩ := ih hside
    exact ⟨hside', hev.trans hev'⟩

theorem ticks_policy (c : Params) (n : Nat) (s : State) : (ticks c n s).pib.rxOnWhenIdle = s.pib.rxOnWhenIdle :=
  ticks_keep c (fun t => t.pib.rxOnWhenIdle = s.pib.rxOnWhenIdle) (fun t h => (oneTick_policy c t).trans h) n s rfl

theorem tick_withReceiver {s t : State} {n : Symbols} (h : exec (.tick n) s = .next t) (active : Bool)
    (timer : BitVec 24) (rx policy : Bool) :
    ∃ u, exec (.tick n) (withReceiver active timer rx policy s) = .next u ∧
      u.eng = t.eng ∧ u.queue = t.queue ∧ u.draws = t.draws ∧ u.responses = t.responses ∧
      u.pib = { t.pib with rxOnWhenIdle := policy } ∧ SameButRx s s t u := by
  refine ⟨_, rfl, ?_⟩
  cases h
  have hside : SameEngineSide s (withReceiver active timer rx policy s) := ⟨⟨rfl, rfl, rfl⟩, rfl, rfl⟩
  obtain ⟨⟨⟨heng, -, hdraws⟩, hqueue, hpib⟩, hev⟩ := ticks_sameEngineSide Config.platform n.toNat hside
  rw [ticks_policy] at hpib
  obtain ⟨hoff, e⟩ | ⟨hon, e⟩ := tick_cases Config.platform n s
  · rw [e, tick, if_neg (by exact hoff)]
    exact ⟨rfl, rfl, rfl, rfl, rfl, [], [], (List.append_nil _).symm, (List.append_nil _).symm, rfl⟩
  · rw [e, tick, if_pos (by exact hon)]
    refine ⟨heng.symm, hqueue.symm, hdraws.symm, ?_, hpib, hev⟩
    rw [State.done_responses, State.done_responses, ticks_responses, ticks_responses]
    rfl

/-! ## TICK: the receiver's side -/

/-- The same window, receiver and `rxOnWhenIdle`. -/
structure SameReceiverSide (s s' : State) : Prop where
  windowActive : s.windowActive = s'.windowActive
  windowTimer : s.windowTimer = s'.windowTimer
  radioRx : s.radioRx = s'.radioRx
  policy : s.pib.rxOnWhenIdle = s'.pib.rxOnWhenIdle

/-- Two runs emitted the same RADIO_RX. -/
def SameRx (s s' t t' : State) : Prop :=
  ∃ es fs, t.events = s.events ++ es ∧ t'.events = s'.events ++ fs ∧ fs.filter Event.isRadioRx = es.filter Event.isRadioRx

theorem SameRx.trans {s s' t t' u u' : State} (h : SameRx s s' t t') (k : SameRx t t' u u') : SameRx s s' u u' := by
  obtain ⟨es, fs, hes, hfs, heq⟩ := h
  obtain ⟨es', fs', hes', hfs', heq'⟩ := k
  exact ⟨es ++ es', fs ++ fs', by rw [hes', hes, List.append_assoc], by rw [hfs', hfs, List.append_assoc],
    by rw [List.filter_append, List.filter_append, heq, heq']⟩

/-- A stream without a last RADIO_RX has none. -/
theorem filter_isRadioRx_of_lastRadioRx {es : List Event} (h : lastRadioRx es = none) :
    es.filter Event.isRadioRx = [] := by
  induction es using List.reverseRecOn with
  | nil => rfl
  | append_singleton es e ih =>
    rw [lastRadioRx_append] at h
    obtain ⟨he, hes⟩ := Option.or_eq_none_iff.mp h
    rw [List.filter_append, ih hes]
    cases e with
    | radioRx _ => cases he
    | _ => rfl

/-- The engine and the queue bring no RADIO_RX into a tick, and keep what the window's tick reads. -/
theorem queueTick_engineTick_sameReceiverSide (c : Params) {s s' : State} (h : SameReceiverSide s s') :
    SameReceiverSide (queueTick (engineTick c s)) (queueTick (engineTick c s')) ∧
      SameRx s s' (queueTick (engineTick c s)) (queueTick (engineTick c s')) := by
  have hkeep : ∀ u, KeepsReceiver u (queueTick (engineTick c u)) := fun u =>
    (engineTick_keepsReceiver c u).trans (queueTick_keepsReceiver _)
  have htimer : ∀ u, (queueTick (engineTick c u)).windowTimer = u.windowTimer := fun u =>
    (engineTick_frame c u).windowTimer
  obtain ⟨es, hes, hnone⟩ := (hkeep s).silent
  obtain ⟨fs, hfs, hnone'⟩ := (hkeep s').silent
  refine ⟨⟨?_, ?_, ?_, ?_⟩, es, fs, hes, hfs, ?_⟩
  · rw [(hkeep s).window, (hkeep s').window, h.windowActive]
  · rw [htimer, htimer, h.windowTimer]
  · rw [(hkeep s).radioRx, (hkeep s').radioRx, h.radioRx]
  · rw [(hkeep s).policy, (hkeep s').policy, h.policy]
  · rw [filter_isRadioRx_of_lastRadioRx hnone, filter_isRadioRx_of_lastRadioRx hnone']

theorem windowTick_sameReceiverSide {s s' : State} (h : SameReceiverSide s s') :
    SameReceiverSide (windowTick s) (windowTick s') ∧ SameRx s s' (windowTick s) (windowTick s') := by
  have hrx : rxOn (s.setWindow false 0) = rxOn (s'.setWindow false 0) := congrArg (· || false) h.policy
  unfold windowTick
  rw [← h.windowActive, ← h.windowTimer]
  split_ifs
  · refine ⟨⟨rfl, rfl, hrx, h.policy⟩, [.radioRx (rxOn (s.setWindow false 0))], [.radioRx (rxOn (s.setWindow false 0))],
      rfl, ?_, rfl⟩
    rw [hrx]
    rfl
  · exact ⟨⟨rfl, rfl, h.radioRx, h.policy⟩, [], [], (List.append_nil _).symm, (List.append_nil _).symm, rfl⟩
  · exact ⟨h, [], [], (List.append_nil _).symm, (List.append_nil _).symm, rfl⟩

theorem ticks_sameReceiverSide (c : Params) (n : Nat) {s s' : State} (h : SameReceiverSide s s') :
    SameReceiverSide (ticks c n s) (ticks c n s') ∧ SameRx s s' (ticks c n s) (ticks c n s') := by
  induction n generalizing s s' with
  | zero => exact ⟨h, [], [], (List.append_nil _).symm, (List.append_nil _).symm, rfl⟩
  | succ n ih =>
    obtain ⟨hbefore, hev⟩ := queueTick_engineTick_sameReceiverSide c h
    obtain ⟨hone, hev'⟩ := windowTick_sameReceiverSide hbefore
    obtain ⟨hrest, hev''⟩ := ih (s := oneTick c s) (s' := oneTick c s') hone
    exact ⟨hrest, (hev.trans hev').trans hev''⟩

theorem tick_withEngine {s t : State} {n : Symbols} (h : exec (.tick n) s = .next t) (eng : Engine)
    (queue : List Entry) (draws : Nat) :
    ∃ u, exec (.tick n) (withEngine eng queue draws s) = .next u ∧
      SameReceiverSide u t ∧ u.responses = t.responses ∧ SameRx s s t u := by
  refine ⟨_, rfl, ?_⟩
  cases h
  have hside : SameReceiverSide s (withEngine eng queue draws s) := ⟨rfl, rfl, rfl, rfl⟩
  obtain ⟨⟨hactive, htimer, hrx, hpolicy⟩, hev⟩ := ticks_sameReceiverSide Config.platform n.toNat hside
  obtain ⟨hoff, e⟩ | ⟨hon, e⟩ := tick_cases Config.platform n s
  · rw [e, tick, if_neg (by exact hoff)]
    exact ⟨⟨rfl, rfl, rfl, rfl⟩, rfl, [], [], (List.append_nil _).symm, (List.append_nil _).symm, rfl⟩
  · rw [e, tick, if_pos (by exact hon)]
    refine ⟨⟨hactive.symm, htimer.symm, hrx.symm, hpolicy.symm⟩, ?_, hev⟩
    rw [State.done_responses, State.done_responses, ticks_responses, ticks_responses]
    rfl

/-! ## R259 -/

/-- Settles O53: the frames of each unit's operations; an engine operation commutes with a change of the receiver, a scheduler
operation with one of the engine; and TICK's two sides each depend on their own unit. -/
theorem schedulerAndEngineAreIndependent : Obligations.SchedulerAndEngineAreIndependent := by
  refine ⟨fun i s t h => ⟨fun hi => ?_, fun hi => schedulerOp_keepsEngine h hi⟩, ?_, ?_⟩
  · obtain ⟨⟨-, hpolicy, hactive, hrx, hev⟩, htimer⟩ := engineOp_keepsReceiver h hi
    exact ⟨hactive, htimer, hrx, hpolicy, hev⟩
  · rintro i s t active rx policy timer h (⟨n, rfl⟩ | hi)
    · obtain ⟨u, hu, heng, hqueue, hdraws, hresp, hpib, es, fs, hes, hfs, heq⟩ :=
        tick_withReceiver h active timer rx policy
      exact ⟨u, es, fs, hu, heng, hqueue, hdraws, hresp, hpib, hes, hfs, heq⟩
    · obtain ⟨es, hes⟩ := (exec_answers h).events
      exact ⟨_, es, es, engineOp_withReceiver h hi active timer rx policy, rfl, rfl, rfl, rfl, rfl, hes, hes, rfl⟩
  · rintro i s t eng queue draws h (⟨n, rfl⟩ | hi)
    · obtain ⟨u, hu, ⟨hactive, htimer, hrx, hpolicy⟩, hresp, es, fs, hes, hfs, heq⟩ := tick_withEngine h eng queue draws
      exact ⟨u, es, fs, hu, hactive, htimer, hrx, hresp, hpolicy, hes, hfs, heq⟩
    · obtain ⟨es, hes⟩ := (exec_answers h).events
      exact ⟨_, es, es, schedulerOp_withEngine h hi eng queue draws, rfl, rfl, rfl, rfl, rfl, hes, hes, rfl⟩

end Sys2Proof
end

section
/-! PROOFS. The sequence number (spec/43_csma_engine.md R180, R192): the engine takes it from `dsn` at a request's first
transmission and at no other time. -/

namespace Sys2Proof

open Machine

/-- `dsn` and the numbering stand, or the request has ended, since `s`. -/
def NumberingStands (s t : State) : Prop :=
  t.pib.dsn = s.pib.dsn ∧ (t.eng.seqValid = s.eng.seqValid ∨ t.eng = Engine.idle)

/-- An unnumbered request was numbered by the transmission of `es` that carries the old `dsn`, which went up by one. -/
def TakesNumber (s t : State) (es : List Event) : Prop :=
  t.pib.dsn = s.pib.dsn + 1 ∧ s.eng.seqValid = false ∧ (t.eng.seqValid = true ∨ t.eng = Engine.idle) ∧
    ∃ handle len ackReq, Event.radioTx s.pib.dsn handle len ackReq ∈ es

/-- What the engine does to the numbering: at most one number is taken, at a transmission. -/
def NumbersOnce (s t : State) : Prop :=
  ∃ es, t.events = s.events ++ es ∧ (NumberingStands s t ∨ TakesNumber s t es)

theorem numbersOnce_of_stands {s t : State} {es : List Event} (he : t.events = s.events ++ es)
    (h : NumberingStands s t) : NumbersOnce s t := ⟨es, he, .inl h⟩

theorem NumbersOnce.refl (s : State) : NumbersOnce s s :=
  numbersOnce_of_stands (List.append_nil _).symm ⟨rfl, .inl rfl⟩

/-- One after the other, while the request is still in the engine in between. -/
theorem NumbersOnce.trans {s t u : State} (h : NumbersOnce s t) (hbusy : t.eng.st ≠ .idle) (k : NumbersOnce t u) :
    NumbersOnce s u := by
  have hne : t.eng ≠ Engine.idle := fun hidle => hbusy (by rw [hidle]; rfl)
  obtain ⟨es, hes, h⟩ := h
  obtain ⟨fs, hfs, k⟩ := k
  refine ⟨es ++ fs, by rw [hfs, hes, List.append_assoc], ?_⟩
  obtain ⟨hdsn, hvalid⟩ | ⟨hdsn, hfresh, hvalid, hd, l, a, hmem⟩ := h <;>
    obtain ⟨kdsn, kvalid⟩ | ⟨kdsn, kfresh, kvalid, kd, kl, ka, kmem⟩ := k <;>
    have hvalid := hvalid.resolve_right hne
  · exact .inl ⟨kdsn.trans hdsn, kvalid.imp_left (·.trans hvalid)⟩
  · exact .inr ⟨by rw [kdsn, hdsn], hvalid.symm.trans kfresh, kvalid, kd, kl, ka,
      List.mem_append_right es (hdsn ▸ kmem)⟩
  · exact .inr ⟨kdsn.trans hdsn, hfresh, kvalid.imp_left (·.trans hvalid), hd, l, a, List.mem_append_left fs hmem⟩
  · cases hvalid.symm.trans kfresh

theorem finish_numbersOnce (st : Status) (s : State) : NumbersOnce s (finish st s) :=
  numbersOnce_of_stands rfl ⟨rfl, .inr rfl⟩

theorem transmit_numbersOnce (s : State) : NumbersOnce s (transmit s) := by
  cases h : s.eng.seqValid with
  | true =>
    rw [transmit_of_numbered h]
    exact numbersOnce_of_stands rfl ⟨rfl, .inl rfl⟩
  | false =>
    rw [transmit_of_unnumbered h]
    exact ⟨_, rfl, .inr ⟨rfl, h, .inl rfl, _, _, _, List.mem_singleton_self _⟩⟩

theorem issueCca_numbersOnce (s : State) : NumbersOnce s (issueCca s) := numbersOnce_of_stands rfl ⟨rfl, .inl rfl⟩

theorem setEng_numbersOnce {s : State} {e : Engine} (h : e.seqValid = s.eng.seqValid) : NumbersOnce s (s.setEng e) :=
  numbersOnce_of_stands (List.append_nil _).symm ⟨rfl, .inl h⟩

theorem startBackoff_numbersOnce (c : Params) (s : State) : NumbersOnce s (startBackoff c s) := by
  obtain ⟨r, -, -, ⟨-, e⟩ | ⟨-, e⟩⟩ := startBackoff_cases c s <;> rw [e]
  · exact issueCca_numbersOnce (s.setDraws (s.draws + 1))
  · exact setEng_numbersOnce (s := s.setDraws (s.draws + 1)) rfl

theorem startCycle_numbersOnce (c : Params) (s : State) : NumbersOnce s (startCycle c s) := by
  obtain ⟨-, e⟩ | ⟨-, -, e⟩ | ⟨-, -, e⟩ := startCycle_cases c s <;> rw [e]
  · exact transmit_numbersOnce s
  · exact finish_numbersOnce _ (cycleStart s)
  · exact startBackoff_numbersOnce c (cycleStart s)

theorem startRequest_numbersOnce (c : Params) (h l : Byte) (a : Bool) (s : State) :
    NumbersOnce (latchRequest h l a s) (startRequest c h l a s) := by
  obtain ⟨-, e⟩ | ⟨-, e⟩ := startRequest_cases c h l a s <;> rw [e]
  · exact finish_numbersOnce _ _
  · exact startCycle_numbersOnce c (loadTotal (latchRequest h l a s))

theorem ackFail_numbersOnce (c : Params) (s : State) : NumbersOnce s (ackFail c s) := by
  obtain ⟨-, e⟩ | ⟨-, e⟩ := ackFail_cases c s <;> rw [e]
  · exact startCycle_numbersOnce c (s.setEng _)
  · exact finish_numbersOnce _ s

theorem stateTick_numbersOnce (c : Params) (s : State) : NumbersOnce s (stateTick c s) := by
  obtain ⟨-, -, e⟩ | ⟨-, -, e⟩ | ⟨-, -, e⟩ | ⟨-, -, e⟩ | ⟨-, -, e⟩ := stateTick_cases c s <;> rw [e]
  · exact issueCca_numbersOnce (s.setEng _)
  · exact setEng_numbersOnce rfl
  · exact ackFail_numbersOnce c (s.setEng _)
  · exact setEng_numbersOnce rfl
  · exact .refl s

theorem engineTick_numbersOnce (c : Params) (s : State) : NumbersOnce s (engineTick c s) := by
  obtain ⟨-, e⟩ | ⟨-, -, e⟩ | ⟨-, -, e⟩ := engineTick_cases c s <;> rw [e]
  · exact .refl s
  · exact finish_numbersOnce _ (totalTick s)
  · exact stateTick_numbersOnce c (totalTick s)

/-- What only appends events keeps the numbering. -/
theorem NumbersOnce.append {s t u : State} (h : NumbersOnce s t) (heng : u.eng = t.eng) (hpib : u.pib = t.pib)
    (he : ∃ fs, u.events = t.events ++ fs) : NumbersOnce s u := by
  obtain ⟨es, hes, h⟩ := h
  obtain ⟨fs, hfs⟩ := he
  refine ⟨es ++ fs, by rw [hfs, hes, List.append_assoc], ?_⟩
  obtain ⟨hdsn, hvalid⟩ | ⟨hdsn, hfresh, hvalid, hd, l, a, hmem⟩ := h
  · exact .inl ⟨by rw [hpib, hdsn], by rw [heng]; exact hvalid⟩
  · exact .inr ⟨by rw [hpib, hdsn], hfresh, by rw [heng]; exact hvalid, hd, l, a, List.mem_append_left fs hmem⟩

theorem oneTick_numbersOnce (c : Params) (s : State) : NumbersOnce s (oneTick c s) :=
  (engineTick_numbersOnce c s).append (oneTick_eng c s) (oneTick_pib c s) (oneTick_events c s)

/-- Ticks of an idle engine leave it and the PIB alone, and only append events. -/
theorem ticks_of_idle (c : Params) (n : Nat) {s : State} (hidle : s.eng.st = .idle) :
    (ticks c n s).eng = s.eng ∧ (ticks c n s).pib = s.pib := by
  refine ticks_keep c (fun t => t.eng = s.eng ∧ t.pib = s.pib) (fun t ht => ?_) n s ⟨rfl, rfl⟩
  obtain ⟨heng, hpib⟩ := ht
  have hsame : engineTick c t = t := if_pos (by rw [heng, hidle])
  exact ⟨by rw [oneTick_eng, hsame, heng], by rw [oneTick_pib, hsame, hpib]⟩

theorem ticks_numbersOnce (c : Params) (n : Nat) (s : State) : NumbersOnce s (ticks c n s) := by
  induction n generalizing s with
  | zero => exact .refl s
  | succ n ih =>
    rw [ticks]
    by_cases hidle : (oneTick c s).eng.st = .idle
    · obtain ⟨heng, hpib⟩ := ticks_of_idle c n hidle
      exact (oneTick_numbersOnce c s).append heng hpib (ticks_appends c n (oneTick c s)).events
    · exact (oneTick_numbersOnce c s).trans hidle (ih (oneTick c s))

/-! ## R192 -/

/-- The statement of R192 for one operation. -/
def DsnAdvances (s t : State) : Prop :=
  (t.pib.dsn = s.pib.dsn ∧ t.eng.seqValid = (s.eng.seqValid && t.eng.seqValid)) ∨
  (t.pib.dsn = s.pib.dsn + 1 ∧ (s.eng.st = .idle ∨ s.eng.seqValid = false) ∧
    ∃ handle len ackReq, Event.radioTx s.pib.dsn handle len ackReq ∈ t.events.drop s.events.length)

theorem NumbersOnce.dsnAdvances {s t : State} (h : NumbersOnce s t) : DsnAdvances s t := by
  obtain ⟨es, hes, ⟨hdsn, hvalid⟩ | ⟨hdsn, hfresh, -, hd, l, a, hmem⟩⟩ := h
  · refine .inl ⟨hdsn, ?_⟩
    obtain hvalid | hidle := hvalid
    · rw [hvalid, Bool.and_self]
    · rw [hidle]
      exact (Bool.and_false _).symm
  · refine .inr ⟨hdsn, .inr hfresh, hd, l, a, ?_⟩
    rw [hes, List.drop_left]
    exact hmem

/-- A request accepted by an idle engine is unnumbered, whatever the engine's registers held. -/
theorem startRequest_dsnAdvances {c : Params} {h l : Byte} {a : Bool} {s : State} (hidle : s.eng.st = .idle) :
    DsnAdvances s (startRequest c h l a s) := by
  obtain ⟨es, hes, ⟨hdsn, hvalid⟩ | ⟨hdsn, -, -, hd, k, b, hmem⟩⟩ := startRequest_numbersOnce c h l a s
  · refine .inl ⟨hdsn, ?_⟩
    have hfresh : (startRequest c h l a s).eng.seqValid = false := by
      obtain hvalid | hidle := hvalid
      · exact hvalid
      · rw [hidle]; rfl
    rw [hfresh, Bool.and_false]
  · have hev : (startRequest c h l a s).events = s.events ++ es := hes
    refine .inr ⟨hdsn, .inl hidle, hd, k, b, ?_⟩
    rw [hev, List.drop_left]
    exact hmem

theorem DsnAdvances.answer {s t : State} (h : DsnAdvances s t) (r : Response) : DsnAdvances s (t.answer r) := h

/-- An operation that leaves `dsn` and the engine alone. -/
theorem dsnAdvances_of_same {s t : State} (hdsn : t.pib.dsn = s.pib.dsn) (heng : t.eng = s.eng) : DsnAdvances s t :=
  .inl ⟨hdsn, by rw [heng, Bool.and_self]⟩

theorem dataReq_dsnAdvances (c : Params) (h l : Byte) (ind ack : Bool) (s : State) :
    DsnAdvances s (dataReq c h l ind ack s) := by
  obtain ⟨-, e⟩ | ⟨-, -, e⟩ | ⟨-, -, -, e⟩ | ⟨-, -, -, hidle, e⟩ | ⟨-, -, -, -, e⟩ := dataReq_cases c h l ind ack s <;>
    rw [e]
  · exact dsnAdvances_of_same rfl rfl
  · exact dsnAdvances_of_same rfl rfl
  · obtain ⟨-, e⟩ | ⟨-, -, e⟩ | ⟨-, -, e⟩ := enqueue_cases c h l ack s <;> rw [e] <;>
      exact dsnAdvances_of_same rfl rfl
  · exact (startRequest_dsnAdvances hidle).answer _
  · exact dsnAdvances_of_same rfl rfl

theorem ccaResult_dsnAdvances (c : Params) (busy : Bool) (s : State) : DsnAdvances s (ccaResult c busy s) := by
  obtain ⟨-, e⟩ | ⟨-, -, -, -, e⟩ | ⟨-, -, -, -, e⟩ | ⟨-, -, -, e⟩ := ccaResult_cases c busy s <;> rw [e]
  · exact dsnAdvances_of_same rfl rfl
  · have hfinish : NumbersOnce s (finish .channelAccessFailure (busyCca c s)) := finish_numbersOnce _ (busyCca c s)
    exact hfinish.dsnAdvances.answer _
  · have hbackoff : NumbersOnce s (startBackoff c (busyCca c s)) := startBackoff_numbersOnce c (busyCca c s)
    exact hbackoff.dsnAdvances.answer _
  · exact (transmit_numbersOnce s).dsnAdvances.answer _

theorem txDone_dsnAdvances (c : Params) (s : State) : DsnAdvances s (txDone c s) := by
  obtain ⟨-, e⟩ | ⟨-, -, -, e⟩ | ⟨-, -, -, -, e⟩ | ⟨-, -, -, -, e⟩ := txDone_cases c s <;> rw [e]
  · exact dsnAdvances_of_same rfl rfl
  · exact (finish_numbersOnce _ s).dsnAdvances.answer _
  · exact (ackFail_numbersOnce c s).dsnAdvances.answer _
  · have hwait : NumbersOnce s (s.setEng { s.eng with ackTimer := s.eng.sAckWait, st := .ackWait }) :=
      setEng_numbersOnce rfl
    exact hwait.dsnAdvances.answer _

theorem ackRx_dsnAdvances (seq : Byte) (s : State) : DsnAdvances s (ackRx seq s) := by
  obtain ⟨-, e⟩ | ⟨-, -, -, e⟩ := ackRx_cases seq s <;> rw [e]
  · exact dsnAdvances_of_same rfl rfl
  · exact (finish_numbersOnce _ s).dsnAdvances.answer _

theorem indRelease_dsnAdvances (c : Params) (h : Byte) (s : State) : DsnAdvances s (indRelease c h s) := by
  obtain ⟨-, e⟩ | ⟨-, -, e⟩ | ⟨-, -, -, e⟩ | ⟨-, hidle, en, -, e⟩ := indRelease_cases c h s <;> rw [e]
  · exact dsnAdvances_of_same rfl rfl
  · exact dsnAdvances_of_same rfl rfl
  · exact dsnAdvances_of_same rfl rfl
  · have hstart : DsnAdvances s (startRequest c en.handle en.len en.ackReq (s.setQueue (withoutOldest s.queue h))) :=
      startRequest_dsnAdvances (s := s.setQueue _) hidle
    exact hstart.answer _

theorem pibSet_dsn_eq (attr : Byte) (v : Half) (s : State) : (pibSet attr v s).pib.dsn = s.pib.dsn := by
  obtain hpib | ⟨r, -, hr, hpib⟩ := pibSet_pib attr v s <;> rw [hpib]
  exact dsn_writePib s.pib v hr

/-- Settles O57: the engine's operations by `NumbersOnce`, the others because they leave `dsn` and the engine alone. -/
theorem sequenceNumberAdvancesOncePerRequest : Obligations.SequenceNumberAdvancesOncePerRequest := by
  intro i s t h hinit hdeinit hreset
  show DsnAdvances s t
  cases i <;> cases h
  case init ih => exact absurd rfl (hinit ih)
  case deinit => exact absurd rfl hdeinit
  case reset => exact absurd rfl hreset
  case pibSet attr v => exact dsnAdvances_of_same (pibSet_dsn_eq attr v s) (pibSet_leavesRequests attr v s).eng
  case pibGet attr =>
    obtain ⟨-, e⟩ | ⟨-, _, _, e⟩ := pibGet_cases attr s <;> rw [e] <;> exact dsnAdvances_of_same rfl rfl
  case hdrEncode => exact dsnAdvances_of_same rfl rfl
  case hdrDecode => exact dsnAdvances_of_same rfl rfl
  case frameParse => exact dsnAdvances_of_same rfl rfl
  case frameBuild => exact dsnAdvances_of_same rfl rfl
  case classify => exact dsnAdvances_of_same rfl rfl
  case dataReq h l ind ack => exact dataReq_dsnAdvances _ h l ind ack s
  case tick n =>
    obtain ⟨-, e⟩ | ⟨-, e⟩ := tick_cases Config.platform n s <;> rw [e]
    · exact dsnAdvances_of_same rfl rfl
    · exact (ticks_numbersOnce _ _ s).dsnAdvances.answer _
  case ccaResult busy => exact ccaResult_dsnAdvances _ busy s
  case txDone => exact txDone_dsnAdvances _ s
  case ackRx seq => exact ackRx_dsnAdvances seq s
  case indRelease k => exact indRelease_dsnAdvances _ k s
  case purge k =>
    obtain ⟨-, e⟩ | ⟨-, -, e⟩ | ⟨-, -, e⟩ := purge_cases k s <;> rw [e] <;> exact dsnAdvances_of_same rfl rfl
  case rxEnable stop start dur =>
    obtain ⟨heng, -, hpib, -⟩ := schedulerOp_keepsEngine (i := .rxEnable stop start dur) (s := s) rfl (.inl ⟨_, _, _, rfl⟩)
    exact dsnAdvances_of_same (congrArg Pib.dsn hpib) heng
  case isRxEnabled =>
    obtain ⟨heng, -, hpib, -⟩ := schedulerOp_keepsEngine (i := .isRxEnabled) (s := s) rfl (.inr (.inl rfl))
    exact dsnAdvances_of_same (congrArg Pib.dsn hpib) heng
  case startRx =>
    obtain ⟨heng, -, hpib, -⟩ := schedulerOp_keepsEngine (i := .startRx) (s := s) rfl (.inr (.inr rfl))
    exact dsnAdvances_of_same (congrArg Pib.dsn hpib) heng

end Sys2Proof
end

section
/-! PROOFS. The bounds on a request's transmissions and CCA requests (spec/43_csma_engine.md R194): what a procedure emits and
what it leaves to be emitted stay within the budget of the cycles left. -/

namespace Sys2Proof

open Machine

/-! ## The budget of a request -/

theorem ccaRequests_append (es fs : List Event) : ccaRequests (es ++ fs) = ccaRequests es + ccaRequests fs := by
  simp [ccaRequests]

/-- The bounds of R31 on the retry and the busy count. -/
structure BudgetInv (c : Params) (e : Engine) : Prop where
  retries : e.retries.toNat ≤ e.sMaxFR.toNat
  count : e.st = .backoff ∨ e.st = .ccaWait → e.NB.toNat < ccaLimit c e

/-- A numbered request transmits with its `seq` alone, and keeps it while it is in the engine. -/
def KeepsSeq (s t : State) (es : List Event) : Prop :=
  s.eng.seqValid = true →
    (∀ seq handle len ackReq, Event.radioTx seq handle len ackReq ∈ es → seq = s.eng.seq) ∧
    (t.eng.st ≠ .idle → t.eng.seqValid = true ∧ t.eng.seq = s.eng.seq)

/-- What is emitted, and what may still be, is at most `txs` RADIO_TX and `ccas` RADIO_CCA. -/
structure Spends (c : Params) (txs ccas : Nat) (s t : State) (es : List Event) : Prop where
  events : t.events = s.events ++ es
  txs : transmissions es + transmissionsLeft t.eng ≤ txs
  ccas : ccaRequests es + ccaRequestsLeft c t.eng ≤ ccas
  seq : KeepsSeq s t es
  inv : BudgetInv c t.eng

/-- A procedure that spends within a budget. -/
def SpendsWithin (c : Params) (txs ccas : Nat) (s t : State) : Prop := ∃ es, Spends c txs ccas s t es

theorem SpendsWithin.mono {c : Params} {txs ccas txs' ccas' : Nat} {s t : State} (h : SpendsWithin c txs ccas s t)
    (htx : txs ≤ txs') (hcca : ccas ≤ ccas') : SpendsWithin c txs' ccas' s t := by
  obtain ⟨es, hes, htxs, hccas, hseq, hinv⟩ := h
  exact ⟨es, hes, htxs.trans htx, hccas.trans hcca, hseq, hinv⟩

theorem finish_spends (c : Params) (txs ccas : Nat) (st : Status) (s : State) :
    SpendsWithin c txs ccas s (finish st s) := by
  refine ⟨[.confData s.eng.handle st], rfl, Nat.zero_le _, Nat.zero_le _, fun _ => ⟨?_, fun h => absurd rfl h⟩,
    Nat.zero_le _, by simp [finish, Engine.idle]⟩
  intro seq handle len ackReq hmem
  cases List.mem_singleton.mp hmem

/-! ## The engine's procedures -/

/-- A transmission uses the current cycle; only the retry cycles are left (R180). -/
theorem transmit_spends {c : Params} {s : State} (h : s.eng.retries.toNat ≤ s.eng.sMaxFR.toNat) :
    SpendsWithin c (s.eng.sMaxFR.toNat - s.eng.retries.toNat + 1)
      ((s.eng.sMaxFR.toNat - s.eng.retries.toNat) * ccaLimit c s.eng) s (transmit s) := by
  have hseq : s.eng.seqValid = true → (assignSeq s).eng.seq = s.eng.seq := fun hv => by rw [assignSeq_of_numbered hv]
  refine ⟨[.radioTx (assignSeq s).eng.seq (assignSeq s).eng.handle (assignSeq s).eng.len (assignSeq s).eng.ackReq],
    congrArg (· ++ _) (assignSeq_events s), ?_, ?_, fun hv => ⟨?_, fun _ => ?_⟩, ?_⟩ <;> try rw [transmit_eng]
  · exact (Nat.add_comm 1 _).le
  · exact (Nat.zero_add _).le
  · intro seq handle len ackReq hmem
    cases List.mem_singleton.mp hmem
    exact hseq hv
  · exact ⟨rfl, hseq hv⟩
  · exact ⟨h, by simp⟩

/-- A CCA asked for is one of those the current cycle allows (R179). -/
theorem issueCca_spends {c : Params} {s : State} (h : s.eng.retries.toNat ≤ s.eng.sMaxFR.toNat)
    (hcount : s.eng.NB.toNat < ccaLimit c s.eng) :
    SpendsWithin c (s.eng.sMaxFR.toNat - s.eng.retries.toNat + 1)
      ((s.eng.sMaxFR.toNat - s.eng.retries.toNat) * ccaLimit c s.eng + (ccaLimit c s.eng - s.eng.NB.toNat)) s
      (issueCca s) := by
  refine ⟨[.radioCca], rfl, (Nat.zero_add _).le, ?_, fun hv => ⟨?_, fun _ => ⟨hv, rfl⟩⟩, h, fun _ => hcount⟩
  · show 1 + ((s.eng.sMaxFR.toNat - s.eng.retries.toNat) * ccaLimit c s.eng +
      (ccaLimit c s.eng - s.eng.NB.toNat - 1)) ≤ _
    omega
  · intro seq handle len ackReq hmem
    cases List.mem_singleton.mp hmem

theorem startBackoff_spends {c : Params} {s : State} (h : s.eng.retries.toNat ≤ s.eng.sMaxFR.toNat)
    (hcount : s.eng.NB.toNat < ccaLimit c s.eng) :
    SpendsWithin c (s.eng.sMaxFR.toNat - s.eng.retries.toNat + 1)
      ((s.eng.sMaxFR.toNat - s.eng.retries.toNat) * ccaLimit c s.eng + (ccaLimit c s.eng - s.eng.NB.toNat)) s
      (startBackoff c s) := by
  obtain ⟨r, -, -, ⟨-, e⟩ | ⟨-, e⟩⟩ := startBackoff_cases c s <;> rw [e]
  · obtain ⟨es, hes, htxs, hccas, hseq, hinv⟩ := issueCca_spends (s := s.setDraws (s.draws + 1)) h hcount
    exact ⟨es, hes, htxs, hccas, hseq, hinv⟩
  · exact ⟨[], (List.append_nil _).symm, (Nat.zero_add _).le, (Nat.zero_add _).le,
      fun hv => ⟨fun _ _ _ _ hmem => absurd hmem List.not_mem_nil, fun _ => ⟨hv, rfl⟩⟩, h, fun _ => hcount⟩

/-- A cycle spends at most one transmission and `ccaLimit()` CCAs, and the retry cycles are left (R178). -/
theorem startCycle_spends {c : Params} {s : State} (h : s.eng.retries.toNat ≤ s.eng.sMaxFR.toNat) :
    SpendsWithin c (s.eng.sMaxFR.toNat - s.eng.retries.toNat + 1)
      ((s.eng.sMaxFR.toNat - s.eng.retries.toNat) * ccaLimit c s.eng + ccaLimit c s.eng) s (startCycle c s) := by
  obtain ⟨-, e⟩ | ⟨-, -, e⟩ | ⟨-, hlimit, e⟩ := startCycle_cases c s <;> rw [e]
  · exact (transmit_spends h).mono (Nat.le_refl _) (Nat.le_add_right _ _)
  · obtain ⟨es, hes, htxs, hccas, hseq, hinv⟩ := finish_spends c (s.eng.sMaxFR.toNat - s.eng.retries.toNat + 1)
      ((s.eng.sMaxFR.toNat - s.eng.retries.toNat) * ccaLimit c s.eng + ccaLimit c s.eng) .channelAccessFailure (cycleStart s)
    exact ⟨es, hes, htxs, hccas, hseq, hinv⟩
  · obtain ⟨es, hes, htxs, hccas, hseq, hinv⟩ := startBackoff_spends (c := c) (s := cycleStart s) h hlimit
    exact ⟨es, hes, htxs, hccas, hseq, hinv⟩

/-- A failed attempt leaves the budget of the retry cycles, of which it may start the next (R182). -/
theorem ackFail_spends {c : Params} (s : State) :
    SpendsWithin c (s.eng.sMaxFR.toNat - s.eng.retries.toNat)
      ((s.eng.sMaxFR.toNat - s.eng.retries.toNat) * ccaLimit c s.eng) s (ackFail c s) := by
  obtain ⟨hleft, e⟩ | ⟨-, e⟩ := ackFail_cases c s <;> rw [e]
  · have hretries : (s.eng.retries + 1).toNat = s.eng.retries.toNat + 1 := by bv_omega
    obtain ⟨es, hes, htxs, hccas, hseq, hinv⟩ :=
      startCycle_spends (c := c) (s := s.setEng { s.eng with retries := s.eng.retries + 1 })
        (by show (s.eng.retries + 1).toNat ≤ s.eng.sMaxFR.toNat; omega)
    have hcycles : s.eng.sMaxFR.toNat - (s.eng.retries + 1).toNat + 1 = s.eng.sMaxFR.toNat - s.eng.retries.toNat := by
      omega
    refine ⟨es, hes, htxs.trans hcycles.le, hccas.trans ?_, hseq, hinv⟩
    rw [← hcycles, Nat.add_mul, Nat.one_mul]
    exact Nat.le_refl _
  · exact finish_spends _ _ _ _ s

/-- An accepted request has `maxFrameRetries + 1` cycles (R177). -/
theorem startRequest_spends (c : Params) (h l : Byte) (a : Bool) (s : State) :
    SpendsWithin c (s.pib.maxFrameRetries.toNat + 1)
      ((s.pib.maxFrameRetries.toNat + 1) * ccaLimit c (latchRequest h l a s).eng) (latchRequest h l a s)
      (startRequest c h l a s) := by
  obtain ⟨-, e⟩ | ⟨-, e⟩ := startRequest_cases c h l a s <;> rw [e]
  · exact finish_spends _ _ _ _ _
  · obtain ⟨es, hes, htxs, hccas, hseq, hinv⟩ :=
      startCycle_spends (c := c) (s := loadTotal (latchRequest h l a s)) (Nat.zero_le _)
    refine ⟨es, hes, htxs, hccas.trans ?_, hseq, hinv⟩
    rw [Nat.add_mul, Nat.one_mul]
    exact Nat.le_refl _

/-! ## Ticks -/

/-- A change of timers alone spends nothing. -/
theorem setEng_spends {c : Params} {s : State} {e : Engine} (h : BudgetInv c e)
    (htxs : transmissionsLeft e = transmissionsLeft s.eng) (hccas : ccaRequestsLeft c e = ccaRequestsLeft c s.eng)
    (hvalid : e.seqValid = s.eng.seqValid) (hseq : e.seq = s.eng.seq) :
    SpendsWithin c (transmissionsLeft s.eng) (ccaRequestsLeft c s.eng) s (s.setEng e) :=
  ⟨[], (List.append_nil _).symm, (Nat.zero_add _).trans_le htxs.le, (Nat.zero_add _).trans_le hccas.le,
    fun hv => ⟨fun _ _ _ _ hmem => absurd hmem List.not_mem_nil, fun _ => ⟨hvalid.trans hv, hseq⟩⟩, h⟩

theorem transmissionsLeft_of_backoff {e : Engine} (h : e.st = .backoff) :
    transmissionsLeft e = e.sMaxFR.toNat - e.retries.toNat + 1 := by rw [transmissionsLeft, h]

theorem ccaRequestsLeft_of_backoff {c : Params} {e : Engine} (h : e.st = .backoff) :
    ccaRequestsLeft c e = (e.sMaxFR.toNat - e.retries.toNat) * ccaLimit c e + (ccaLimit c e - e.NB.toNat) := by
  rw [ccaRequestsLeft, h]

theorem transmissionsLeft_of_ackWait {e : Engine} (h : e.st = .ackWait) :
    transmissionsLeft e = e.sMaxFR.toNat - e.retries.toNat := by rw [transmissionsLeft, h]

theorem ccaRequestsLeft_of_ackWait {c : Params} {e : Engine} (h : e.st = .ackWait) :
    ccaRequestsLeft c e = (e.sMaxFR.toNat - e.retries.toNat) * ccaLimit c e := by rw [ccaRequestsLeft, h]

theorem stateTick_spends {c : Params} {s : State} (h : BudgetInv c s.eng) :
    SpendsWithin c (transmissionsLeft s.eng) (ccaRequestsLeft c s.eng) s (stateTick c s) := by
  obtain ⟨hst, -, e⟩ | ⟨-, -, e⟩ | ⟨hst, -, e⟩ | ⟨-, -, e⟩ | ⟨-, -, e⟩ := stateTick_cases c s <;> rw [e]
  · rw [transmissionsLeft_of_backoff hst, ccaRequestsLeft_of_backoff hst]
    obtain ⟨es, hes, htxs, hccas, hseq, hinv⟩ :=
      issueCca_spends (c := c) (s := s.setEng { s.eng with backoffTimer := s.eng.backoffTimer - 1 }) h.retries
        (h.count (.inl hst))
    exact ⟨es, hes, htxs, hccas, hseq, hinv⟩
  · exact setEng_spends ⟨h.retries, h.count⟩ rfl rfl rfl rfl
  · rw [transmissionsLeft_of_ackWait hst, ccaRequestsLeft_of_ackWait hst]
    obtain ⟨es, hes, htxs, hccas, hseq, hinv⟩ := ackFail_spends (c := c) (s.setEng { s.eng with ackTimer := 0 })
    exact ⟨es, hes, htxs, hccas, hseq, hinv⟩
  · exact setEng_spends ⟨h.retries, h.count⟩ rfl rfl rfl rfl
  · exact setEng_spends (e := s.eng) h rfl rfl rfl rfl

theorem engineTick_spends {c : Params} {s : State} (h : BudgetInv c s.eng) :
    SpendsWithin c (transmissionsLeft s.eng) (ccaRequestsLeft c s.eng) s (engineTick c s) := by
  obtain ⟨-, e⟩ | ⟨-, -, e⟩ | ⟨-, -, e⟩ := engineTick_cases c s <;> rw [e]
  · exact setEng_spends (e := s.eng) h rfl rfl rfl rfl
  · obtain ⟨es, hes, htxs, hccas, hseq, hinv⟩ :=
      finish_spends c (transmissionsLeft s.eng) (ccaRequestsLeft c s.eng) c.totalWaitStatus (totalTick s)
    exact ⟨es, hes, htxs, hccas, hseq, hinv⟩
  · obtain ⟨es, hes, htxs, hccas, hseq, hinv⟩ := stateTick_spends (c := c) (s := totalTick s) ⟨h.retries, h.count⟩
    exact ⟨es, hes, htxs, hccas, hseq, hinv⟩

/-- An event that neither transmits nor asks for a CCA. -/
def Harmless (es : List Event) : Prop := transmissions es = 0 ∧ ccaRequests es = 0

theorem not_radioTx_of_harmless {es : List Event} (h : transmissions es = 0) (seq handle len : Byte) (ackReq : Bool) :
    Event.radioTx seq handle len ackReq ∉ es := fun hmem =>
  List.countP_eq_zero.mp h _ hmem rfl

/-- Harmless events and writes outside the engine spend nothing. -/
theorem Spends.append {c : Params} {txs ccas : Nat} {s t u : State} {es fs : List Event}
    (h : Spends c txs ccas s t es) (heng : u.eng = t.eng) (he : u.events = t.events ++ fs) (hfs : Harmless fs) :
    Spends c txs ccas s u (es ++ fs) := by
  obtain ⟨hes, htxs, hccas, hseq, hinv⟩ := h
  obtain ⟨hnotx, hnocca⟩ := hfs
  refine ⟨by rw [he, hes, List.append_assoc], ?_, ?_, fun hv => ⟨?_, ?_⟩, heng ▸ hinv⟩
  · rw [transmissions_append, hnotx, heng]
    exact htxs
  · rw [ccaRequests_append, hnocca, heng]
    exact hccas
  · intro seq handle len ackReq hmem
    obtain hmem | hmem := List.mem_append.mp hmem
    · exact (hseq hv).1 seq handle len ackReq hmem
    · exact absurd hmem (not_radioTx_of_harmless hnotx seq handle len ackReq)
  · rw [heng]
    exact (hseq hv).2

theorem harmless_of_filter {rx : List Event} (h : rx.filter (fun e => !e.isRadioRx) = []) : Harmless rx := by
  have honly := List.filter_eq_nil_iff.mp h
  refine ⟨List.countP_eq_zero.mpr fun e he => ?_, List.countP_eq_zero.mpr fun e he => ?_⟩ <;>
  · have hrx := honly e he
    cases e with
    | radioRx _ => exact Bool.false_ne_true
    | _ => exact absurd rfl hrx

theorem harmless_expiredNow (q : List Entry) : Harmless (expiredNow q) := by
  refine ⟨List.countP_eq_zero.mpr fun e he => ?_, List.countP_eq_zero.mpr fun e he => ?_⟩ <;>
  · obtain ⟨_, -, rfl⟩ := List.mem_map.mp he
    exact Bool.false_ne_true

theorem Harmless.append {es fs : List Event} (h : Harmless es) (k : Harmless fs) : Harmless (es ++ fs) := by
  obtain ⟨htx, hcca⟩ := h
  obtain ⟨ktx, kcca⟩ := k
  exact ⟨by rw [transmissions_append, htx, ktx], by rw [ccaRequests_append, hcca, kcca]⟩

theorem oneTick_spends {c : Params} {s : State} (h : BudgetInv c s.eng) :
    SpendsWithin c (transmissionsLeft s.eng) (ccaRequestsLeft c s.eng) s (oneTick c s) := by
  obtain ⟨es, hspends⟩ := engineTick_spends h
  obtain ⟨rx, hev, hrx⟩ := oneTick_events_parts c s
  exact ⟨_, hspends.append (oneTick_eng c s) hev ((harmless_expiredNow s.queue).append (harmless_of_filter hrx))⟩

/-- One after the other, when the second part leaves an idle engine idle. -/
theorem SpendsWithin.trans {c : Params} {txs ccas : Nat} {s t u : State} (h : SpendsWithin c txs ccas s t)
    (hidle : t.eng.st = .idle → u.eng.st = .idle)
    (k : SpendsWithin c (transmissionsLeft t.eng) (ccaRequestsLeft c t.eng) t u) : SpendsWithin c txs ccas s u := by
  obtain ⟨es, hes, htxs, hccas, hseq, -⟩ := h
  obtain ⟨fs, hfs, ktxs, kccas, kseq, kinv⟩ := k
  refine ⟨es ++ fs, by rw [hfs, hes, List.append_assoc], ?_, ?_, fun hv => ⟨?_, ?_⟩, kinv⟩
  · rw [transmissions_append]
    omega
  · rw [ccaRequests_append]
    omega
  · intro seq handle len ackReq hmem
    obtain ⟨hsent, hkept⟩ := hseq hv
    obtain hmem | hmem := List.mem_append.mp hmem
    · exact hsent seq handle len ackReq hmem
    · by_cases hst : t.eng.st = .idle
      · have hzero : transmissionsLeft t.eng = 0 := by rw [transmissionsLeft, hst]
        have hnone : transmissions fs = 0 := by omega
        exact absurd hmem (not_radioTx_of_harmless hnone seq handle len ackReq)
      · obtain ⟨hvalid, hsame⟩ := hkept hst
        exact ((kseq hvalid).1 seq handle len ackReq hmem).trans hsame
  · intro hst
    obtain ⟨hvalid, hsame⟩ := (hseq hv).2 (fun h => hst (hidle h))
    obtain ⟨kvalid, ksame⟩ := (kseq hvalid).2 hst
    exact ⟨kvalid, ksame.trans hsame⟩

theorem ticks_spends {c : Params} (n : Nat) {s : State} (h : BudgetInv c s.eng) :
    SpendsWithin c (transmissionsLeft s.eng) (ccaRequestsLeft c s.eng) s (ticks c n s) := by
  induction n generalizing s with
  | zero => exact setEng_spends (e := s.eng) h rfl rfl rfl rfl
  | succ n ih =>
    have hone := oneTick_spends h
    obtain ⟨_, _, _, _, _, hinv⟩ := id hone
    refine hone.trans (fun hidle => ?_) (ih hinv)
    obtain ⟨hsame, -⟩ := ticks_of_idle c n hidle
    show (ticks c n (oneTick c s)).eng.st = .idle
    rw [hsame, hidle]

/-! ## The operations -/

theorem SpendsWithin.answer {c : Params} {txs ccas : Nat} {s t : State} (h : SpendsWithin c txs ccas s t)
    (r : Response) : SpendsWithin c txs ccas s (t.answer r) := by
  obtain ⟨es, hes, htxs, hccas, hseq, hinv⟩ := h
  exact ⟨es, hes, htxs, hccas, hseq, hinv⟩

/-- What leaves the engine alone and emits harmless events spends nothing. -/
theorem spends_of_same {c : Params} {s t : State} {es : List Event} (h : BudgetInv c s.eng) (heng : t.eng = s.eng)
    (he : t.events = s.events ++ es) (hes : Harmless es) :
    SpendsWithin c (transmissionsLeft s.eng) (ccaRequestsLeft c s.eng) s t := by
  obtain ⟨fs, hfs⟩ := setEng_spends (s := s) (e := s.eng) h rfl rfl rfl rfl
  exact ⟨_, hfs.append heng he hes⟩

theorem ccaResult_spends {c : Params} {busy : Bool} {s : State} (h : BudgetInv c s.eng)
    (hfits : s.eng.st = .ccaWait → s.eng.NB.toNat < 7) :
    SpendsWithin c (transmissionsLeft s.eng) (ccaRequestsLeft c s.eng) s (ccaResult c busy s) := by
  have htxs : s.eng.st = .ccaWait → transmissionsLeft s.eng = s.eng.sMaxFR.toNat - s.eng.retries.toNat + 1 :=
    fun hst => by rw [transmissionsLeft, hst]
  have hccas : s.eng.st = .ccaWait → ccaRequestsLeft c s.eng =
      (s.eng.sMaxFR.toNat - s.eng.retries.toNat) * ccaLimit c s.eng + (ccaLimit c s.eng - s.eng.NB.toNat - 1) :=
    fun hst => by rw [ccaRequestsLeft, hst]
  obtain ⟨-, e⟩ | ⟨-, -, -, -, e⟩ | ⟨-, hst, -, hcount, e⟩ | ⟨-, hst, -, e⟩ := ccaResult_cases c busy s <;> rw [e]
  · exact (setEng_spends (e := s.eng) h rfl rfl rfl rfl).answer _
  · obtain ⟨es, hes, htxs, hccas, hseq, hinv⟩ := finish_spends c (transmissionsLeft s.eng) (ccaRequestsLeft c s.eng)
      .channelAccessFailure (busyCca c s)
    exact ⟨es, hes, htxs, hccas, hseq, hinv⟩
  · obtain ⟨es, hes, ktxs, kccas, hseq, hinv⟩ := startBackoff_spends (c := c) (s := busyCca c s) h.retries hcount
    rw [busyCca_NB_toNat c (hfits hst)] at kccas
    rw [htxs hst, hccas hst, Nat.sub_sub]
    exact ⟨es, hes, ktxs, kccas, hseq, hinv⟩
  · rw [htxs hst, hccas hst]
    exact ((transmit_spends h.retries).mono (Nat.le_refl _) (Nat.le_add_right _ _)).answer _

theorem txDone_spends {c : Params} {s : State} (h : BudgetInv c s.eng) :
    SpendsWithin c (transmissionsLeft s.eng) (ccaRequestsLeft c s.eng) s (txDone c s) := by
  have htxs : s.eng.st = .txWait → transmissionsLeft s.eng = s.eng.sMaxFR.toNat - s.eng.retries.toNat :=
    fun hst => by rw [transmissionsLeft, hst]
  have hccas : s.eng.st = .txWait →
      ccaRequestsLeft c s.eng = (s.eng.sMaxFR.toNat - s.eng.retries.toNat) * ccaLimit c s.eng :=
    fun hst => by rw [ccaRequestsLeft, hst]
  obtain ⟨-, e⟩ | ⟨-, -, -, e⟩ | ⟨-, hst, -, -, e⟩ | ⟨-, hst, -, -, e⟩ := txDone_cases c s <;> rw [e]
  · exact (setEng_spends (e := s.eng) h rfl rfl rfl rfl).answer _
  · exact (finish_spends _ _ _ _ s).answer _
  · rw [htxs hst, hccas hst]
    exact (ackFail_spends s).answer _
  · exact (setEng_spends (e := { s.eng with ackTimer := s.eng.sAckWait, st := .ackWait }) ⟨h.retries, by simp⟩
      (htxs hst).symm (hccas hst).symm rfl rfl).answer _

theorem ackRx_spends {c : Params} {seq : Byte} {s : State} (h : BudgetInv c s.eng) :
    SpendsWithin c (transmissionsLeft s.eng) (ccaRequestsLeft c s.eng) s (ackRx seq s) := by
  obtain ⟨-, e⟩ | ⟨-, -, -, e⟩ := ackRx_cases seq s <;> rw [e]
  · exact (setEng_spends (e := s.eng) h rfl rfl rfl rfl).answer _
  · exact (finish_spends _ _ _ _ s).answer _

theorem tick_spends {c : Params} {n : Symbols} {s : State} (h : BudgetInv c s.eng) :
    SpendsWithin c (transmissionsLeft s.eng) (ccaRequestsLeft c s.eng) s (tick c n s) := by
  obtain ⟨-, e⟩ | ⟨-, e⟩ := tick_cases c n s <;> rw [e]
  · exact (setEng_spends (e := s.eng) h rfl rfl rfl rfl).answer _
  · exact (ticks_spends _ h).answer _

/-- Turned away, held or refused, a DATA_REQ leaves the engine alone and emits at most a confirm. -/
theorem dataReq_same_or_accepts (c : Params) (h l : Byte) (ind ack : Bool) (s : State) :
    ((dataReq c h l ind ack s).eng = s.eng ∧
      ∃ es, (dataReq c h l ind ack s).events = s.events ++ es ∧ Harmless es) ∨
    (s.eng.st = .idle ∧ dataReq c h l ind ack s = (startRequest c h l ack s).done) := by
  have hnone : ∃ es, s.events = s.events ++ es ∧ Harmless es := ⟨[], (List.append_nil _).symm, rfl, rfl⟩
  obtain ⟨-, e⟩ | ⟨-, -, e⟩ | ⟨-, -, -, e⟩ | ⟨-, -, -, hidle, e⟩ | ⟨-, -, -, -, e⟩ := dataReq_cases c h l ind ack s <;>
    rw [e]
  · exact .inl ⟨rfl, hnone⟩
  · exact .inl ⟨rfl, _, rfl, rfl, rfl⟩
  · obtain ⟨-, e⟩ | ⟨-, -, e⟩ | ⟨-, -, e⟩ := enqueue_cases c h l ack s <;> rw [e]
    · exact .inl ⟨rfl, _, rfl, rfl, rfl⟩
    · exact .inl ⟨rfl, _, rfl, rfl, rfl⟩
    · exact .inl ⟨rfl, hnone⟩
  · exact .inr ⟨hidle, rfl⟩
  · exact .inl ⟨rfl, _, rfl, rfl, rfl⟩

/-- An IND_RELEASE that releases nothing changes nothing. -/
theorem indRelease_same_or_releases (c : Params) (h : Byte) (s : State) :
    ((indRelease c h s).eng = s.eng ∧ (indRelease c h s).events = s.events) ∨
    (s.eng.st = .idle ∧ ∃ e : Entry, indRelease c h s =
      (startRequest c e.handle e.len e.ackReq (s.setQueue (withoutOldest s.queue h))).respond 0#32) := by
  obtain ⟨-, e⟩ | ⟨-, -, e⟩ | ⟨-, -, -, e⟩ | ⟨-, hidle, en, -, e⟩ := indRelease_cases c h s <;> rw [e]
  · exact .inl ⟨rfl, rfl⟩
  · exact .inl ⟨rfl, rfl⟩
  · exact .inl ⟨rfl, rfl⟩
  · exact .inr ⟨hidle, en, rfl⟩

/-! ## R194 -/

/-- What the accepting operation emits, and leaves to be emitted. -/
theorem accepting_spends {i : Instr} {s t : State} (hidle : s.eng.st = .idle) (h : exec i s = .next t)
    (hi : (∃ h l ind ack, i = .dataReq h l ind ack) ∨ ∃ h, i = .indRelease h) :
    ∃ es, t.events = s.events ++ es ∧
      transmissions es + transmissionsLeft t.eng ≤ s.pib.maxFrameRetries.toNat + 1 ∧
      ccaRequests es + ccaRequestsLeft Config.platform t.eng ≤
        (s.pib.maxFrameRetries.toNat + 1) * s.pib.maxCSMABackoffs.toNat := by
  have hsame : ∀ {t : State} {es : List Event}, t.eng = s.eng → Harmless es →
      transmissions es + transmissionsLeft t.eng = 0 ∧ ccaRequests es + ccaRequestsLeft Config.platform t.eng = 0 := by
    rintro t es heng ⟨htx, hcca⟩
    rw [heng, htx, hcca, transmissionsLeft, ccaRequestsLeft, hidle]
    exact ⟨rfl, rfl⟩
  obtain ⟨k, l, ind, ack, rfl⟩ | ⟨k, rfl⟩ := hi <;> cases h
  · obtain ⟨heng, es, hes, hharm⟩ | ⟨-, e⟩ := dataReq_same_or_accepts Config.platform k l ind ack s
    · obtain ⟨htx, hcca⟩ := hsame heng hharm
      exact ⟨es, hes, htx.le.trans (Nat.zero_le _), hcca.le.trans (Nat.zero_le _)⟩
    · obtain ⟨es, hes, htxs, hccas, -, -⟩ := startRequest_spends Config.platform k l ack s
      rw [e]
      exact ⟨es, hes, htxs, hccas⟩
  · obtain ⟨heng, hes⟩ | ⟨-, en, e⟩ := indRelease_same_or_releases Config.platform k s
    · obtain ⟨htx, hcca⟩ := hsame (es := []) heng ⟨rfl, rfl⟩
      exact ⟨[], hes.trans (List.append_nil _).symm, htx.le.trans (Nat.zero_le _), hcca.le.trans (Nat.zero_le _)⟩
    · obtain ⟨es, hes, htxs, hccas, -, -⟩ := startRequest_spends Config.platform en.handle en.len en.ackReq
        (s.setQueue (withoutOldest s.queue k))
      rw [e]
      exact ⟨es, hes, htxs, hccas⟩

/-- What a later operation of the engine emits, and leaves to be emitted. -/
theorem later_spends {i : Instr} {s t : State} (hbudget : BudgetInv Config.platform s.eng) (h : exec i s = .next t)
    (hi : (∃ b, i = .ccaResult b) ∨ i = .txDone ∨ (∃ q, i = .ackRx q) ∨ (∃ n, i = .tick n) ∨
      (s.eng.st ≠ .idle ∧ ((∃ h l ind ack, i = .dataReq h l ind ack) ∨ ∃ h, i = .indRelease h))) :
    SpendsWithin Config.platform (transmissionsLeft s.eng) (ccaRequestsLeft Config.platform s.eng) s t := by
  obtain ⟨b, rfl⟩ | rfl | ⟨q, rfl⟩ | ⟨n, rfl⟩ | ⟨hbusy, ⟨k, l, ind, ack, rfl⟩ | ⟨k, rfl⟩⟩ := hi <;> cases h
  · refine ccaResult_spends hbudget fun hst => ?_
    have hcount : s.eng.NB.toNat < s.eng.sMaxCB.toNat := hbudget.count (.inr hst)
    have hmax := s.eng.sMaxCB.isLt
    omega
  · exact txDone_spends hbudget
  · exact ackRx_spends hbudget
  · exact tick_spends hbudget
  · obtain ⟨heng, es, hes, hharm⟩ | ⟨hidle, -⟩ := dataReq_same_or_accepts Config.platform k l ind ack s
    · exact spends_of_same hbudget heng hes hharm
    · exact absurd hidle hbusy
  · obtain ⟨heng, hes⟩ | ⟨hidle, -⟩ := indRelease_same_or_releases Config.platform k s
    · exact spends_of_same hbudget heng (hes.trans (List.append_nil _).symm) ⟨rfl, rfl⟩
    · exact absurd hidle hbusy

/-- Settles O58: `accepting_spends` and `later_spends`. -/
theorem transmissionsAreBounded : Obligations.TransmissionsAreBounded := by
  refine ⟨fun i s t hidle h hi => accepting_spends hidle h hi, fun i s t hretries hcount h hi => ?_⟩
  obtain ⟨es, hes, htxs, hccas, hseq, -⟩ := later_spends ⟨hretries, hcount⟩ h hi
  exact ⟨es, hes, htxs, hccas, hseq⟩

end Sys2Proof
end
